-- ==== Sys2Proof/Word.lean ====
section
/-! DEFINITION. The word types of the Mira2204 and the condition field of a standard instruction
(00_scope.md R5, R7; 30_encoding.md R81, R82). Types only: what is computed with them stands in Machine/. -/

namespace Sys2Proof

/-- A 32-bit register value, address or instruction word (R5). -/
abbrev Word := BitVec 32

/-- A 16-bit value: `sr`, a condition register, a compact instruction (R5, R90). -/
abbrev Half := BitVec 16

/-- The addressable unit, 8 bits (R5). -/
abbrev Byte := BitVec 8

/-- A 4-bit register number; all sixteen values are legal (R78). -/
abbrev Reg := BitVec 4

/-- The fifteen condition codes that have a meaning (R82); the reserved code 0111 is not among them. -/
inductive Cond where
  /-- 0000, always true -/
  | al
  /-- 0001, overflow -/
  | vs
  /-- 0010, carry or unsigned greater than or equal -/
  | cs
  /-- 0011, unsigned greater than -/
  | hi
  /-- 0100, zero or equal to -/
  | eq
  /-- 0101, negative or signed less than -/
  | mi
  /-- 0110, signed greater than -/
  | gt
  /-- 1000, always false -/
  | nv
  /-- 1001, no overflow -/
  | vc
  /-- 1010, no carry or unsigned less than -/
  | cc
  /-- 1011, unsigned less than or equal -/
  | ls
  /-- 1100, not equal to -/
  | ne
  /-- 1101, positive or signed greater than or equal -/
  | pl
  /-- 1110, signed less than or equal -/
  | le
  /-- 1111, always true, flags go to the selected condition register -/
  | f
  deriving DecidableEq, Repr

/-- The condition byte of a standard instruction: `cccc` and the condition register select `rr` (R81). -/
structure Guard where
  cond : Cond
  rr : BitVec 2
  deriving DecidableEq, Repr

/-- The unconditional guard, `cccc = 0000` with `rr = 00` (R81). -/
def Guard.always : Guard := ⟨.al, 0#2⟩

end Sys2Proof
end

