-- ==== Sys2Proof/Syntax.lean ====
section
/-! DEFINITION. The instructions of the Mira2204: one constructor for each row of spec/opcode_table.json,
in the table's order. A standard instruction carries its condition field `g`; a compact instruction has none.
`x`, `y`, `z` are register fields, `n` an immediate field, `q` the secondary operand of a compact
instruction that ignores it (30_encoding.md R94), `lo` and `k` the free bits of a reserved row. -/

namespace Sys2Proof

/-- One constructor per row of the opcode table. The name of a constructor is the row's mnemonic, with a suffix
`N` or `N12` for an immediate, `X` for a register operand where the mnemonic serves both, `To`/`From` for the two
`smov`, and a leading `c` for a compact row; `rsvd`/`cRsvd` and the opcode byte name a reserved row. -/
inductive Instr where
  /-- opcode bytes 0x00-0x07, reserved (R86) -/
  | rsvd00 (g : Guard) (k : BitVec 3) (lo : BitVec 16)
  /-- 0x08, `ret` (R220) -/
  | ret (g : Guard)
  /-- 0x09, `fret` (R221) -/
  | fret (g : Guard)
  /-- 0x0A, `sleep` (R222) -/
  | sleep (g : Guard)
  /-- 0x0B, `rfi` (R223) -/
  | rfi (g : Guard)
  /-- 0x0C, reserved (R225) -/
  | rsvd0C (g : Guard) (lo : BitVec 16)
  /-- 0x0D, reserved (R225) -/
  | rsvd0D (g : Guard) (lo : BitVec 16)
  /-- 0x0E, reserved (R225) -/
  | rsvd0E (g : Guard) (lo : BitVec 16)
  /-- 0x0F, `brk` (R224) -/
  | brk (g : Guard)
  /-- 0x10, `ba $n` (R200) -/
  | ba (g : Guard) (n : BitVec 16)
  /-- 0x11, `br $n` (R201) -/
  | br (g : Guard) (n : BitVec 16)
  /-- 0x12, `jf $n` (R202) -/
  | jf (g : Guard) (n : BitVec 16)
  /-- 0x13, `last $n` (R203) -/
  | last (g : Guard) (n : BitVec 16)
  /-- 0x14, `call $n` (R204) -/
  | call (g : Guard) (n : BitVec 16)
  /-- 0x15, `callr $n` (R205) -/
  | callr (g : Guard) (n : BitVec 16)
  /-- 0x16, `fcall $n` (R206) -/
  | fcall (g : Guard) (n : BitVec 16)
  /-- 0x17, `fcallr $n` (R207) -/
  | fcallr (g : Guard) (n : BitVec 16)
  /-- 0x18, `int $n` (R208) -/
  | int (g : Guard) (n : BitVec 16)
  /-- 0x19, `int x` (R209) -/
  | intX (g : Guard) (x : Reg)
  /-- 0x1A, `lil $n` (R210) -/
  | lil (g : Guard) (n : BitVec 16)
  /-- 0x1B, `lih $n` (R211) -/
  | lih (g : Guard) (n : BitVec 16)
  /-- 0x1C, `call x` (R212) -/
  | callX (g : Guard) (x : Reg)
  /-- 0x1D, `callr x` (R213) -/
  | callrX (g : Guard) (x : Reg)
  /-- 0x1E, `fcall x` (R214) -/
  | fcallX (g : Guard) (x : Reg)
  /-- 0x1F, `fcallr x` (R215) -/
  | fcallrX (g : Guard) (x : Reg)
  /-- 0x20, `mov x,y` (R180) -/
  | mov (g : Guard) (x : Reg) (y : Reg)
  /-- 0x21, `swp x,y` (R181) -/
  | swp (g : Guard) (x : Reg) (y : Reg)
  /-- 0x22, `not x,y` (R182) -/
  | not (g : Guard) (x : Reg) (y : Reg)
  /-- 0x23, `cmp x,y` (R183) -/
  | cmp (g : Guard) (x : Reg) (y : Reg)
  /-- 0x24, `sxb x,y` (R184) -/
  | sxb (g : Guard) (x : Reg) (y : Reg)
  /-- 0x25, `sxw x,y` (R185) -/
  | sxw (g : Guard) (x : Reg) (y : Reg)
  /-- 0x26, `zxb x,y` (R186) -/
  | zxb (g : Guard) (x : Reg) (y : Reg)
  /-- 0x27, `zxw x,y` (R187) -/
  | zxw (g : Guard) (x : Reg) (y : Reg)
  /-- 0x28, reserved (R197) -/
  | rsvd28 (g : Guard) (lo : BitVec 16)
  /-- 0x29, reserved (R197) -/
  | rsvd29 (g : Guard) (lo : BitVec 16)
  /-- 0x2A, reserved (R197) -/
  | rsvd2A (g : Guard) (lo : BitVec 16)
  /-- 0x2B, reserved (R197) -/
  | rsvd2B (g : Guard) (lo : BitVec 16)
  /-- 0x2C, `mvhh x,y` (R188) -/
  | mvhh (g : Guard) (x : Reg) (y : Reg)
  /-- 0x2D, `mvhl x,y` (R189) -/
  | mvhl (g : Guard) (x : Reg) (y : Reg)
  /-- 0x2E, `mvlh x,y` (R190) -/
  | mvlh (g : Guard) (x : Reg) (y : Reg)
  /-- 0x2F, `mvll x,y` (R191) -/
  | mvll (g : Guard) (x : Reg) (y : Reg)
  /-- 0x30, `add x,$n` (R192) -/
  | addN12 (g : Guard) (x : Reg) (n : BitVec 12)
  /-- 0x31, `sub x,$n` (R193) -/
  | subN12 (g : Guard) (x : Reg) (n : BitVec 12)
  /-- 0x32, reserved (R197) -/
  | rsvd32 (g : Guard) (lo : BitVec 16)
  /-- 0x33, reserved (R197) -/
  | rsvd33 (g : Guard) (lo : BitVec 16)
  /-- 0x34, reserved (R197) -/
  | rsvd34 (g : Guard) (lo : BitVec 16)
  /-- 0x35, reserved (R197) -/
  | rsvd35 (g : Guard) (lo : BitVec 16)
  /-- 0x36, reserved (R197) -/
  | rsvd36 (g : Guard) (lo : BitVec 16)
  /-- 0x37, reserved (R197) -/
  | rsvd37 (g : Guard) (lo : BitVec 16)
  /-- 0x38, `smov sysx,y` (R194) -/
  | smovTo (g : Guard) (x : Reg) (y : Reg)
  /-- 0x39, `smov x,sysy` (R195) -/
  | smovFrom (g : Guard) (x : Reg) (y : Reg)
  /-- 0x3A, reserved (R197) -/
  | rsvd3A (g : Guard) (lo : BitVec 16)
  /-- 0x3B, reserved (R197) -/
  | rsvd3B (g : Guard) (lo : BitVec 16)
  /-- 0x3C, reserved (R197) -/
  | rsvd3C (g : Guard) (lo : BitVec 16)
  /-- 0x3D, reserved (R197) -/
  | rsvd3D (g : Guard) (lo : BitVec 16)
  /-- 0x3E, reserved (R197) -/
  | rsvd3E (g : Guard) (lo : BitVec 16)
  /-- 0x3F, reserved (R197) -/
  | rsvd3F (g : Guard) (lo : BitVec 16)
  /-- 0x40, `add x,y,z` (R108) -/
  | add (g : Guard) (x : Reg) (y : Reg) (z : Reg)
  /-- 0x41, `sub x,y,z` (R109) -/
  | sub (g : Guard) (x : Reg) (y : Reg) (z : Reg)
  /-- 0x42, `umul x,y,z` (R110) -/
  | umul (g : Guard) (x : Reg) (y : Reg) (z : Reg)
  /-- 0x43, `smul x,y,z` (R111) -/
  | smul (g : Guard) (x : Reg) (y : Reg) (z : Reg)
  /-- 0x44, `udiv x,y,z` (R112) -/
  | udiv (g : Guard) (x : Reg) (y : Reg) (z : Reg)
  /-- 0x45, `sdiv x,y,z` (R113) -/
  | sdiv (g : Guard) (x : Reg) (y : Reg) (z : Reg)
  /-- 0x46, reserved (R86) -/
  | rsvd46 (g : Guard) (lo : BitVec 16)
  /-- 0x47, reserved (R86) -/
  | rsvd47 (g : Guard) (lo : BitVec 16)
  /-- 0x48, `and x,y,z` (R114) -/
  | and (g : Guard) (x : Reg) (y : Reg) (z : Reg)
  /-- 0x49, `or x,y,z` (R115) -/
  | or (g : Guard) (x : Reg) (y : Reg) (z : Reg)
  /-- 0x4A, `xor x,y,z` (R116) -/
  | xor (g : Guard) (x : Reg) (y : Reg) (z : Reg)
  /-- 0x4B, `shl x,y,z` (R117) -/
  | shl (g : Guard) (x : Reg) (y : Reg) (z : Reg)
  /-- 0x4C, `shr x,y,z` (R118) -/
  | shr (g : Guard) (x : Reg) (y : Reg) (z : Reg)
  /-- 0x4D, `sar x,y,z` (R119) -/
  | sar (g : Guard) (x : Reg) (y : Reg) (z : Reg)
  /-- 0x4E, `rotl x,y,z` (R120) -/
  | rotl (g : Guard) (x : Reg) (y : Reg) (z : Reg)
  /-- 0x4F, `rotr x,y,z` (R121) -/
  | rotr (g : Guard) (x : Reg) (y : Reg) (z : Reg)
  /-- 0x50, `add x,y,$n` (R122) -/
  | addN (g : Guard) (x : Reg) (y : Reg) (n : BitVec 8)
  /-- 0x51, `sub x,y,$n` (R123) -/
  | subN (g : Guard) (x : Reg) (y : Reg) (n : BitVec 8)
  /-- 0x52, `umul x,y,$n` (R124) -/
  | umulN (g : Guard) (x : Reg) (y : Reg) (n : BitVec 8)
  /-- 0x53, `smul x,y,$n` (R125) -/
  | smulN (g : Guard) (x : Reg) (y : Reg) (n : BitVec 8)
  /-- 0x54, `udiv x,y,$n` (R126) -/
  | udivN (g : Guard) (x : Reg) (y : Reg) (n : BitVec 8)
  /-- 0x55, `sdiv x,y,$n` (R127) -/
  | sdivN (g : Guard) (x : Reg) (y : Reg) (n : BitVec 8)
  /-- 0x56, reserved (R86) -/
  | rsvd56 (g : Guard) (lo : BitVec 16)
  /-- 0x57, reserved (R86) -/
  | rsvd57 (g : Guard) (lo : BitVec 16)
  /-- 0x58, `and x,y,$n` (R128) -/
  | andN (g : Guard) (x : Reg) (y : Reg) (n : BitVec 8)
  /-- 0x59, `or x,y,$n` (R129) -/
  | orN (g : Guard) (x : Reg) (y : Reg) (n : BitVec 8)
  /-- 0x5A, `xor x,y,$n` (R130) -/
  | xorN (g : Guard) (x : Reg) (y : Reg) (n : BitVec 8)
  /-- 0x5B, `shl x,y,$n` (R131) -/
  | shlN (g : Guard) (x : Reg) (y : Reg) (n : BitVec 8)
  /-- 0x5C, `shr x,y,$n` (R132) -/
  | shrN (g : Guard) (x : Reg) (y : Reg) (n : BitVec 8)
  /-- 0x5D, `sar x,y,$n` (R133) -/
  | sarN (g : Guard) (x : Reg) (y : Reg) (n : BitVec 8)
  /-- 0x5E, `rotl x,y,$n` (R134) -/
  | rotlN (g : Guard) (x : Reg) (y : Reg) (n : BitVec 8)
  /-- 0x5F, `rotr x,y,$n` (R135) -/
  | rotrN (g : Guard) (x : Reg) (y : Reg) (n : BitVec 8)
  /-- 0x60, `stb x,y,$n` (R142) -/
  | stb (g : Guard) (x : Reg) (y : Reg) (n : BitVec 8)
  /-- 0x61, `stbi x,y,$n` (R143) -/
  | stbi (g : Guard) (x : Reg) (y : Reg) (n : BitVec 8)
  /-- 0x62, `stbp x,y,$n` (R144) -/
  | stbp (g : Guard) (x : Reg) (y : Reg) (n : BitVec 8)
  /-- 0x63, `stbd x,y,$n` (R145) -/
  | stbd (g : Guard) (x : Reg) (y : Reg) (n : BitVec 8)
  /-- 0x64, `sth x,y,$n` (R146) -/
  | sth (g : Guard) (x : Reg) (y : Reg) (n : BitVec 8)
  /-- 0x65, `sthi x,y,$n` (R147) -/
  | sthi (g : Guard) (x : Reg) (y : Reg) (n : BitVec 8)
  /-- 0x66, `sthp x,y,$n` (R148) -/
  | sthp (g : Guard) (x : Reg) (y : Reg) (n : BitVec 8)
  /-- 0x67, `sthd x,y,$n` (R149) -/
  | sthd (g : Guard) (x : Reg) (y : Reg) (n : BitVec 8)
  /-- 0x68, `stw x,y,$n` (R150) -/
  | stw (g : Guard) (x : Reg) (y : Reg) (n : BitVec 8)
  /-- 0x69, `stwi x,y,$n` (R151) -/
  | stwi (g : Guard) (x : Reg) (y : Reg) (n : BitVec 8)
  /-- 0x6A, `stwp x,y,$n` (R152) -/
  | stwp (g : Guard) (x : Reg) (y : Reg) (n : BitVec 8)
  /-- 0x6B, `stwd x,y,$n` (R153) -/
  | stwd (g : Guard) (x : Reg) (y : Reg) (n : BitVec 8)
  /-- 0x6C, `stbx x,y,z` (R154) -/
  | stbx (g : Guard) (x : Reg) (y : Reg) (z : Reg)
  /-- 0x6D, `sthx x,y,z` (R155) -/
  | sthx (g : Guard) (x : Reg) (y : Reg) (z : Reg)
  /-- 0x6E, `stwx x,y,z` (R156) -/
  | stwx (g : Guard) (x : Reg) (y : Reg) (z : Reg)
  /-- 0x6F, `stwxi x,y,z` (R157) -/
  | stwxi (g : Guard) (x : Reg) (y : Reg) (z : Reg)
  /-- 0x70, `lb x,y,$n` (R162) -/
  | lb (g : Guard) (x : Reg) (y : Reg) (n : BitVec 8)
  /-- 0x71, `lbi x,y,$n` (R163) -/
  | lbi (g : Guard) (x : Reg) (y : Reg) (n : BitVec 8)
  /-- 0x72, `lbp x,y,$n` (R164) -/
  | lbp (g : Guard) (x : Reg) (y : Reg) (n : BitVec 8)
  /-- 0x73, `lbd x,y,$n` (R165) -/
  | lbd (g : Guard) (x : Reg) (y : Reg) (n : BitVec 8)
  /-- 0x74, `lh x,y,$n` (R166) -/
  | lh (g : Guard) (x : Reg) (y : Reg) (n : BitVec 8)
  /-- 0x75, `lhi x,y,$n` (R167) -/
  | lhi (g : Guard) (x : Reg) (y : Reg) (n : BitVec 8)
  /-- 0x76, `lhp x,y,$n` (R168) -/
  | lhp (g : Guard) (x : Reg) (y : Reg) (n : BitVec 8)
  /-- 0x77, `lhd x,y,$n` (R169) -/
  | lhd (g : Guard) (x : Reg) (y : Reg) (n : BitVec 8)
  /-- 0x78, `lw x,y,$n` (R170) -/
  | lw (g : Guard) (x : Reg) (y : Reg) (n : BitVec 8)
  /-- 0x79, `lwi x,y,$n` (R171) -/
  | lwi (g : Guard) (x : Reg) (y : Reg) (n : BitVec 8)
  /-- 0x7A, `lwp x,y,$n` (R172) -/
  | lwp (g : Guard) (x : Reg) (y : Reg) (n : BitVec 8)
  /-- 0x7B, `lwd x,y,$n` (R173) -/
  | lwd (g : Guard) (x : Reg) (y : Reg) (n : BitVec 8)
  /-- 0x7C, `lbx x,y,z` (R174) -/
  | lbx (g : Guard) (x : Reg) (y : Reg) (z : Reg)
  /-- 0x7D, `lhx x,y,z` (R175) -/
  | lhx (g : Guard) (x : Reg) (y : Reg) (z : Reg)
  /-- 0x7E, `lwx x,y,z` (R176) -/
  | lwx (g : Guard) (x : Reg) (y : Reg) (z : Reg)
  /-- 0x7F, `lwxi x,y,z` (R177) -/
  | lwxi (g : Guard) (x : Reg) (y : Reg) (z : Reg)
  /-- operation bytes 0x80-0x8F, reserved (R239) -/
  | cRsvd80 (k : BitVec 4) (lo : BitVec 8)
  /-- 0x90, `c.ba $n` (R238, R200) -/
  | cBa (n : BitVec 8)
  /-- 0x91, `c.br $n` (R238, R201) -/
  | cBr (n : BitVec 8)
  /-- 0x92, `c.jf $n` (R238, R202) -/
  | cJf (n : BitVec 8)
  /-- 0x93, `c.last $n` (R238, R203) -/
  | cLast (n : BitVec 8)
  /-- 0x94, `c.call $n` (R238, R204) -/
  | cCall (n : BitVec 8)
  /-- 0x95, `c.callr $n` (R238, R205) -/
  | cCallr (n : BitVec 8)
  /-- 0x96, `c.fcall $n` (R238, R206) -/
  | cFcall (n : BitVec 8)
  /-- 0x97, `c.fcallr $n` (R238, R207) -/
  | cFcallr (n : BitVec 8)
  /-- 0x98, `c.int $n` (R238, R208) -/
  | cInt (n : BitVec 8)
  /-- 0x99, `c.int x` (R238, R209) -/
  | cIntX (q : BitVec 4) (x : Reg)
  /-- 0x9A, `c.lil $n` (R238, R210) -/
  | cLil (n : BitVec 8)
  /-- 0x9B, `c.lih $n` (R238, R211) -/
  | cLih (n : BitVec 8)
  /-- 0x9C, `c.call x` (R238, R212) -/
  | cCallX (q : BitVec 4) (x : Reg)
  /-- 0x9D, `c.callr x` (R238, R213) -/
  | cCallrX (q : BitVec 4) (x : Reg)
  /-- 0x9E, `c.fcall x` (R238, R214) -/
  | cFcallX (q : BitVec 4) (x : Reg)
  /-- 0x9F, `c.fcallr x` (R238, R215) -/
  | cFcallrX (q : BitVec 4) (x : Reg)
  /-- 0xA0, `c.mov x,y` (R234, R180) -/
  | cMov (x : Reg) (y : Reg)
  /-- 0xA1, `c.swp x,y` (R234, R181) -/
  | cSwp (x : Reg) (y : Reg)
  /-- 0xA2, `c.not x,y` (R234, R182) -/
  | cNot (x : Reg) (y : Reg)
  /-- 0xA3, `c.cmp x,y` (R234, R183) -/
  | cCmp (x : Reg) (y : Reg)
  /-- 0xA4, `c.sxb x,y` (R234, R184) -/
  | cSxb (x : Reg) (y : Reg)
  /-- 0xA5, `c.sxw x,y` (R234, R185) -/
  | cSxw (x : Reg) (y : Reg)
  /-- 0xA6, `c.zxb x,y` (R234, R186) -/
  | cZxb (x : Reg) (y : Reg)
  /-- 0xA7, `c.zxw x,y` (R234, R187) -/
  | cZxw (x : Reg) (y : Reg)
  /-- 0xA8, reserved (R239) -/
  | cRsvdA8 (lo : BitVec 8)
  /-- 0xA9, reserved (R239) -/
  | cRsvdA9 (lo : BitVec 8)
  /-- 0xAA, reserved (R239) -/
  | cRsvdAA (lo : BitVec 8)
  /-- 0xAB, reserved (R239) -/
  | cRsvdAB (lo : BitVec 8)
  /-- 0xAC, `c.mvhh x,y` (R234, R188) -/
  | cMvhh (x : Reg) (y : Reg)
  /-- 0xAD, `c.mvhl x,y` (R234, R189) -/
  | cMvhl (x : Reg) (y : Reg)
  /-- 0xAE, `c.mvlh x,y` (R234, R190) -/
  | cMvlh (x : Reg) (y : Reg)
  /-- 0xAF, `c.mvll x,y` (R234, R191) -/
  | cMvll (x : Reg) (y : Reg)
  /-- 0xB0, `c.add x,$n` (R235, R192) -/
  | cAddN12 (x : Reg) (n : BitVec 4)
  /-- 0xB1, `c.sub x,$n` (R235, R193) -/
  | cSubN12 (x : Reg) (n : BitVec 4)
  /-- 0xB2, reserved (R239) -/
  | cRsvdB2 (lo : BitVec 8)
  /-- 0xB3, reserved (R239) -/
  | cRsvdB3 (lo : BitVec 8)
  /-- 0xB4, reserved (R239) -/
  | cRsvdB4 (lo : BitVec 8)
  /-- 0xB5, reserved (R239) -/
  | cRsvdB5 (lo : BitVec 8)
  /-- 0xB6, reserved (R239) -/
  | cRsvdB6 (lo : BitVec 8)
  /-- 0xB7, reserved (R239) -/
  | cRsvdB7 (lo : BitVec 8)
  /-- 0xB8, `c.smov sysx,y` (R235, R194) -/
  | cSmovTo (x : Reg) (y : Reg)
  /-- 0xB9, `c.smov x,sysy` (R235, R195) -/
  | cSmovFrom (x : Reg) (y : Reg)
  /-- 0xBA, reserved (R239) -/
  | cRsvdBA (lo : BitVec 8)
  /-- 0xBB, reserved (R239) -/
  | cRsvdBB (lo : BitVec 8)
  /-- 0xBC, reserved (R239) -/
  | cRsvdBC (lo : BitVec 8)
  /-- 0xBD, reserved (R239) -/
  | cRsvdBD (lo : BitVec 8)
  /-- 0xBE, reserved (R239) -/
  | cRsvdBE (lo : BitVec 8)
  /-- 0xBF, reserved (R239) -/
  | cRsvdBF (lo : BitVec 8)
  /-- 0xC0, `c.add x,z` (R232, R108) -/
  | cAdd (x : Reg) (z : Reg)
  /-- 0xC1, `c.sub x,z` (R232, R109) -/
  | cSub (x : Reg) (z : Reg)
  /-- 0xC2, `c.umul x,z` (R232, R110) -/
  | cUmul (x : Reg) (z : Reg)
  /-- 0xC3, `c.smul x,z` (R232, R111) -/
  | cSmul (x : Reg) (z : Reg)
  /-- 0xC4, `c.udiv x,z` (R232, R112) -/
  | cUdiv (x : Reg) (z : Reg)
  /-- 0xC5, `c.sdiv x,z` (R232, R113) -/
  | cSdiv (x : Reg) (z : Reg)
  /-- 0xC6, reserved (R239) -/
  | cRsvdC6 (lo : BitVec 8)
  /-- 0xC7, reserved (R239) -/
  | cRsvdC7 (lo : BitVec 8)
  /-- 0xC8, `c.and x,z` (R232, R114) -/
  | cAnd (x : Reg) (z : Reg)
  /-- 0xC9, `c.or x,z` (R232, R115) -/
  | cOr (x : Reg) (z : Reg)
  /-- 0xCA, `c.xor x,z` (R232, R116) -/
  | cXor (x : Reg) (z : Reg)
  /-- 0xCB, `c.shl x,z` (R232, R117) -/
  | cShl (x : Reg) (z : Reg)
  /-- 0xCC, `c.shr x,z` (R232, R118) -/
  | cShr (x : Reg) (z : Reg)
  /-- 0xCD, `c.sar x,z` (R232, R119) -/
  | cSar (x : Reg) (z : Reg)
  /-- 0xCE, `c.rotl x,z` (R232, R120) -/
  | cRotl (x : Reg) (z : Reg)
  /-- 0xCF, `c.rotr x,z` (R232, R121) -/
  | cRotr (x : Reg) (z : Reg)
  /-- 0xD0, `c.add x,$n` (R233, R122) -/
  | cAddN (x : Reg) (n : BitVec 4)
  /-- 0xD1, `c.sub x,$n` (R233, R123) -/
  | cSubN (x : Reg) (n : BitVec 4)
  /-- 0xD2, `c.umul x,$n` (R233, R124) -/
  | cUmulN (x : Reg) (n : BitVec 4)
  /-- 0xD3, `c.smul x,$n` (R233, R125) -/
  | cSmulN (x : Reg) (n : BitVec 4)
  /-- 0xD4, `c.udiv x,$n` (R233, R126) -/
  | cUdivN (x : Reg) (n : BitVec 4)
  /-- 0xD5, `c.sdiv x,$n` (R233, R127) -/
  | cSdivN (x : Reg) (n : BitVec 4)
  /-- 0xD6, reserved (R239) -/
  | cRsvdD6 (lo : BitVec 8)
  /-- 0xD7, reserved (R239) -/
  | cRsvdD7 (lo : BitVec 8)
  /-- 0xD8, `c.and x,$n` (R233, R128) -/
  | cAndN (x : Reg) (n : BitVec 4)
  /-- 0xD9, `c.or x,$n` (R233, R129) -/
  | cOrN (x : Reg) (n : BitVec 4)
  /-- 0xDA, `c.xor x,$n` (R233, R130) -/
  | cXorN (x : Reg) (n : BitVec 4)
  /-- 0xDB, `c.shl x,$n` (R233, R131) -/
  | cShlN (x : Reg) (n : BitVec 4)
  /-- 0xDC, `c.shr x,$n` (R233, R132) -/
  | cShrN (x : Reg) (n : BitVec 4)
  /-- 0xDD, `c.sar x,$n` (R233, R133) -/
  | cSarN (x : Reg) (n : BitVec 4)
  /-- 0xDE, `c.rotl x,$n` (R233, R134) -/
  | cRotlN (x : Reg) (n : BitVec 4)
  /-- 0xDF, `c.rotr x,$n` (R233, R135) -/
  | cRotrN (x : Reg) (n : BitVec 4)
  /-- 0xE0, `c.stb y` (R236, R142) -/
  | cStb (q : BitVec 4) (y : Reg)
  /-- 0xE1, `c.stbi y` (R236, R143) -/
  | cStbi (q : BitVec 4) (y : Reg)
  /-- 0xE2, `c.stbp y` (R236, R144) -/
  | cStbp (q : BitVec 4) (y : Reg)
  /-- 0xE3, `c.stbd y` (R236, R145) -/
  | cStbd (q : BitVec 4) (y : Reg)
  /-- 0xE4, `c.sth y` (R236, R146) -/
  | cSth (q : BitVec 4) (y : Reg)
  /-- 0xE5, `c.sthi y` (R236, R147) -/
  | cSthi (q : BitVec 4) (y : Reg)
  /-- 0xE6, `c.sthp y` (R236, R148) -/
  | cSthp (q : BitVec 4) (y : Reg)
  /-- 0xE7, `c.sthd y` (R236, R149) -/
  | cSthd (q : BitVec 4) (y : Reg)
  /-- 0xE8, `c.stw y` (R236, R150) -/
  | cStw (q : BitVec 4) (y : Reg)
  /-- 0xE9, `c.stwi y` (R236, R151) -/
  | cStwi (q : BitVec 4) (y : Reg)
  /-- 0xEA, `c.stwp y` (R236, R152) -/
  | cStwp (q : BitVec 4) (y : Reg)
  /-- 0xEB, `c.stwd y` (R236, R153) -/
  | cStwd (q : BitVec 4) (y : Reg)
  /-- 0xEC, `c.stbx y,z` (R236, R154) -/
  | cStbx (y : Reg) (z : Reg)
  /-- 0xED, `c.sthx y,z` (R236, R155) -/
  | cSthx (y : Reg) (z : Reg)
  /-- 0xEE, `c.stwx y,z` (R236, R156) -/
  | cStwx (y : Reg) (z : Reg)
  /-- 0xEF, `c.stwxi y,z` (R236, R157) -/
  | cStwxi (y : Reg) (z : Reg)
  /-- 0xF0, `c.lb x` (R237, R162) -/
  | cLb (q : BitVec 4) (x : Reg)
  /-- 0xF1, `c.lbi x` (R237, R163) -/
  | cLbi (q : BitVec 4) (x : Reg)
  /-- 0xF2, `c.lbp x` (R237, R164) -/
  | cLbp (q : BitVec 4) (x : Reg)
  /-- 0xF3, `c.lbd x` (R237, R165) -/
  | cLbd (q : BitVec 4) (x : Reg)
  /-- 0xF4, `c.lh x` (R237, R166) -/
  | cLh (q : BitVec 4) (x : Reg)
  /-- 0xF5, `c.lhi x` (R237, R167) -/
  | cLhi (q : BitVec 4) (x : Reg)
  /-- 0xF6, `c.lhp x` (R237, R168) -/
  | cLhp (q : BitVec 4) (x : Reg)
  /-- 0xF7, `c.lhd x` (R237, R169) -/
  | cLhd (q : BitVec 4) (x : Reg)
  /-- 0xF8, `c.lw x` (R237, R170) -/
  | cLw (q : BitVec 4) (x : Reg)
  /-- 0xF9, `c.lwi x` (R237, R171) -/
  | cLwi (q : BitVec 4) (x : Reg)
  /-- 0xFA, `c.lwp x` (R237, R172) -/
  | cLwp (q : BitVec 4) (x : Reg)
  /-- 0xFB, `c.lwd x` (R237, R173) -/
  | cLwd (q : BitVec 4) (x : Reg)
  /-- 0xFC, `c.lbx x,z` (R237, R174) -/
  | cLbx (x : Reg) (z : Reg)
  /-- 0xFD, `c.lhx x,z` (R237, R175) -/
  | cLhx (x : Reg) (z : Reg)
  /-- 0xFE, `c.lwx x,z` (R237, R176) -/
  | cLwx (x : Reg) (z : Reg)
  /-- 0xFF, `c.lwxi x,z` (R237, R177) -/
  | cLwxi (x : Reg) (z : Reg)
  deriving DecidableEq, Repr

end Sys2Proof
end

