-- ==== Sys2Proof/WellFormed.lean ====
section
/-! DEFINITION. Which instructions are well formed. Fields are bit vectors of the encoding's widths, so one check
is left: a guard with `cccc = 0000` has `rr = 00` (30_encoding.md R81, R87 c). -/

namespace Sys2Proof

/-- "If the condition code is zero ... the condition register bits "rr" must be zero" (R81). -/
def Guard.wellFormed (g : Guard) : Bool := g.cond != .al || g.rr == 0#2

/-- The condition field of a standard instruction; a compact instruction has none (R81). -/
def Instr.guard : Instr → Option Guard
  | .rsvd00 g _ _ => some g
  | .ret g => some g
  | .fret g => some g
  | .sleep g => some g
  | .rfi g => some g
  | .rsvd0C g _ => some g
  | .rsvd0D g _ => some g
  | .rsvd0E g _ => some g
  | .brk g => some g
  | .ba g _ => some g
  | .br g _ => some g
  | .jf g _ => some g
  | .last g _ => some g
  | .call g _ => some g
  | .callr g _ => some g
  | .fcall g _ => some g
  | .fcallr g _ => some g
  | .int g _ => some g
  | .intX g _ => some g
  | .lil g _ => some g
  | .lih g _ => some g
  | .callX g _ => some g
  | .callrX g _ => some g
  | .fcallX g _ => some g
  | .fcallrX g _ => some g
  | .mov g _ _ => some g
  | .swp g _ _ => some g
  | .not g _ _ => some g
  | .cmp g _ _ => some g
  | .sxb g _ _ => some g
  | .sxw g _ _ => some g
  | .zxb g _ _ => some g
  | .zxw g _ _ => some g
  | .rsvd28 g _ => some g
  | .rsvd29 g _ => some g
  | .rsvd2A g _ => some g
  | .rsvd2B g _ => some g
  | .mvhh g _ _ => some g
  | .mvhl g _ _ => some g
  | .mvlh g _ _ => some g
  | .mvll g _ _ => some g
  | .addN12 g _ _ => some g
  | .subN12 g _ _ => some g
  | .rsvd32 g _ => some g
  | .rsvd33 g _ => some g
  | .rsvd34 g _ => some g
  | .rsvd35 g _ => some g
  | .rsvd36 g _ => some g
  | .rsvd37 g _ => some g
  | .smovTo g _ _ => some g
  | .smovFrom g _ _ => some g
  | .rsvd3A g _ => some g
  | .rsvd3B g _ => some g
  | .rsvd3C g _ => some g
  | .rsvd3D g _ => some g
  | .rsvd3E g _ => some g
  | .rsvd3F g _ => some g
  | .add g _ _ _ => some g
  | .sub g _ _ _ => some g
  | .umul g _ _ _ => some g
  | .smul g _ _ _ => some g
  | .udiv g _ _ _ => some g
  | .sdiv g _ _ _ => some g
  | .rsvd46 g _ => some g
  | .rsvd47 g _ => some g
  | .and g _ _ _ => some g
  | .or g _ _ _ => some g
  | .xor g _ _ _ => some g
  | .shl g _ _ _ => some g
  | .shr g _ _ _ => some g
  | .sar g _ _ _ => some g
  | .rotl g _ _ _ => some g
  | .rotr g _ _ _ => some g
  | .addN g _ _ _ => some g
  | .subN g _ _ _ => some g
  | .umulN g _ _ _ => some g
  | .smulN g _ _ _ => some g
  | .udivN g _ _ _ => some g
  | .sdivN g _ _ _ => some g
  | .rsvd56 g _ => some g
  | .rsvd57 g _ => some g
  | .andN g _ _ _ => some g
  | .orN g _ _ _ => some g
  | .xorN g _ _ _ => some g
  | .shlN g _ _ _ => some g
  | .shrN g _ _ _ => some g
  | .sarN g _ _ _ => some g
  | .rotlN g _ _ _ => some g
  | .rotrN g _ _ _ => some g
  | .stb g _ _ _ => some g
  | .stbi g _ _ _ => some g
  | .stbp g _ _ _ => some g
  | .stbd g _ _ _ => some g
  | .sth g _ _ _ => some g
  | .sthi g _ _ _ => some g
  | .sthp g _ _ _ => some g
  | .sthd g _ _ _ => some g
  | .stw g _ _ _ => some g
  | .stwi g _ _ _ => some g
  | .stwp g _ _ _ => some g
  | .stwd g _ _ _ => some g
  | .stbx g _ _ _ => some g
  | .sthx g _ _ _ => some g
  | .stwx g _ _ _ => some g
  | .stwxi g _ _ _ => some g
  | .lb g _ _ _ => some g
  | .lbi g _ _ _ => some g
  | .lbp g _ _ _ => some g
  | .lbd g _ _ _ => some g
  | .lh g _ _ _ => some g
  | .lhi g _ _ _ => some g
  | .lhp g _ _ _ => some g
  | .lhd g _ _ _ => some g
  | .lw g _ _ _ => some g
  | .lwi g _ _ _ => some g
  | .lwp g _ _ _ => some g
  | .lwd g _ _ _ => some g
  | .lbx g _ _ _ => some g
  | .lhx g _ _ _ => some g
  | .lwx g _ _ _ => some g
  | .lwxi g _ _ _ => some g
  | .cRsvd80 _ _ => none
  | .cBa _ => none
  | .cBr _ => none
  | .cJf _ => none
  | .cLast _ => none
  | .cCall _ => none
  | .cCallr _ => none
  | .cFcall _ => none
  | .cFcallr _ => none
  | .cInt _ => none
  | .cIntX _ _ => none
  | .cLil _ => none
  | .cLih _ => none
  | .cCallX _ _ => none
  | .cCallrX _ _ => none
  | .cFcallX _ _ => none
  | .cFcallrX _ _ => none
  | .cMov _ _ => none
  | .cSwp _ _ => none
  | .cNot _ _ => none
  | .cCmp _ _ => none
  | .cSxb _ _ => none
  | .cSxw _ _ => none
  | .cZxb _ _ => none
  | .cZxw _ _ => none
  | .cRsvdA8 _ => none
  | .cRsvdA9 _ => none
  | .cRsvdAA _ => none
  | .cRsvdAB _ => none
  | .cMvhh _ _ => none
  | .cMvhl _ _ => none
  | .cMvlh _ _ => none
  | .cMvll _ _ => none
  | .cAddN12 _ _ => none
  | .cSubN12 _ _ => none
  | .cRsvdB2 _ => none
  | .cRsvdB3 _ => none
  | .cRsvdB4 _ => none
  | .cRsvdB5 _ => none
  | .cRsvdB6 _ => none
  | .cRsvdB7 _ => none
  | .cSmovTo _ _ => none
  | .cSmovFrom _ _ => none
  | .cRsvdBA _ => none
  | .cRsvdBB _ => none
  | .cRsvdBC _ => none
  | .cRsvdBD _ => none
  | .cRsvdBE _ => none
  | .cRsvdBF _ => none
  | .cAdd _ _ => none
  | .cSub _ _ => none
  | .cUmul _ _ => none
  | .cSmul _ _ => none
  | .cUdiv _ _ => none
  | .cSdiv _ _ => none
  | .cRsvdC6 _ => none
  | .cRsvdC7 _ => none
  | .cAnd _ _ => none
  | .cOr _ _ => none
  | .cXor _ _ => none
  | .cShl _ _ => none
  | .cShr _ _ => none
  | .cSar _ _ => none
  | .cRotl _ _ => none
  | .cRotr _ _ => none
  | .cAddN _ _ => none
  | .cSubN _ _ => none
  | .cUmulN _ _ => none
  | .cSmulN _ _ => none
  | .cUdivN _ _ => none
  | .cSdivN _ _ => none
  | .cRsvdD6 _ => none
  | .cRsvdD7 _ => none
  | .cAndN _ _ => none
  | .cOrN _ _ => none
  | .cXorN _ _ => none
  | .cShlN _ _ => none
  | .cShrN _ _ => none
  | .cSarN _ _ => none
  | .cRotlN _ _ => none
  | .cRotrN _ _ => none
  | .cStb _ _ => none
  | .cStbi _ _ => none
  | .cStbp _ _ => none
  | .cStbd _ _ => none
  | .cSth _ _ => none
  | .cSthi _ _ => none
  | .cSthp _ _ => none
  | .cSthd _ _ => none
  | .cStw _ _ => none
  | .cStwi _ _ => none
  | .cStwp _ _ => none
  | .cStwd _ _ => none
  | .cStbx _ _ => none
  | .cSthx _ _ => none
  | .cStwx _ _ => none
  | .cStwxi _ _ => none
  | .cLb _ _ => none
  | .cLbi _ _ => none
  | .cLbp _ _ => none
  | .cLbd _ _ => none
  | .cLh _ _ => none
  | .cLhi _ _ => none
  | .cLhp _ _ => none
  | .cLhd _ _ => none
  | .cLw _ _ => none
  | .cLwi _ _ => none
  | .cLwp _ _ => none
  | .cLwd _ _ => none
  | .cLbx _ _ => none
  | .cLhx _ _ => none
  | .cLwx _ _ => none
  | .cLwxi _ _ => none

/-- A standard instruction is well formed when its guard is; every compact instruction is. -/
def Instr.wellFormed (i : Instr) : Bool :=
  match i.guard with
  | some g => g.wellFormed
  | none => true

/-- The compact instructions are those without a condition field (R70, R81). -/
def Instr.isCompact (i : Instr) : Bool := i.guard.isNone

end Sys2Proof
end

