-- ==== Sys2Proof/Decode.lean ====
section
/-! DEFINITION. Decoding and encoding (30_encoding.md R70 to R98). A 32-bit word with bit 31 clear is one standard
instruction (`decodeStd`); a 16-bit half of a word with bit 31 set is one compact instruction (`decodeHalf`). Both are
total and reject by name. The encoder follows the same tables. -/

namespace Sys2Proof

/-- Why a word or a halfword is no instruction. -/
inductive Reject where
  /-- bit 31 is set: the word is a compact pair, not a standard instruction (R70) -/
  | compactWord
  /-- `I[23:22] != 00` (R87 a) -/
  | reservedV
  /-- `cccc = 0111` (R87 b) -/
  | reservedCond
  /-- `cccc = 0000` with `rr != 00` (R87 c) -/
  | rrNotZero
  /-- an operand bit that the row shows as 0 is 1; the guard decides whether it matters (R87 d, R77 step 3) -/
  | mustBeZero (g : Guard)
  /-- the marker bit 15 of a compact instruction is clear (R91) -/
  | markerClear
  deriving DecidableEq, Repr

/-! ## The fields of a word -/

/-- The opcode byte `I[31:24]` (R71). -/
def fieldOp (w : Word) : BitVec 8 := w.extractLsb' 24 8
/-- The reserved bits `I[23:22]` (R71). -/
def fieldV (w : Word) : BitVec 2 := w.extractLsb' 22 2
/-- `rr = I[21:20]` (R71). -/
def fieldRr (w : Word) : BitVec 2 := w.extractLsb' 20 2
/-- `cccc = I[19:16]` (R71). -/
def fieldCccc (w : Word) : BitVec 4 := w.extractLsb' 16 4
/-- The operand half `I[15:0]` (R71). -/
def fieldLo (w : Word) : Half := w.extractLsb' 0 16
/-- The register field `x`, bits 3:0 of the operand half (R73 to R75). -/
def operandX (lo : Half) : Reg := lo.extractLsb' 0 4
/-- The register field `y`, bits 7:4 (R73, R74). -/
def operandY (lo : Half) : Reg := lo.extractLsb' 4 4
/-- The register field `z`, bits 11:8 (R73). -/
def operandZ (lo : Half) : Reg := lo.extractLsb' 8 4
/-- The 8-bit immediate, bits 15:8 (R73). -/
def operandN8 (lo : Half) : BitVec 8 := lo.extractLsb' 8 8
/-- The 12-bit immediate, bits 15:4 (R74). -/
def operandN12 (lo : Half) : BitVec 12 := lo.extractLsb' 4 12

/-! ## The condition field -/

/-- The bits of a condition code (R82). -/
def condCode : Cond → BitVec 4
  | .al => 0x0#4 | .vs => 0x1#4 | .cs => 0x2#4 | .hi => 0x3#4
  | .eq => 0x4#4 | .mi => 0x5#4 | .gt => 0x6#4
  | .nv => 0x8#4 | .vc => 0x9#4 | .cc => 0xA#4 | .ls => 0xB#4
  | .ne => 0xC#4 | .pl => 0xD#4 | .le => 0xE#4 | .f => 0xF#4

/-- The condition code that four bits stand for; 0111 is reserved (R82). -/
def condOfCode (c : BitVec 4) : Option Cond :=
  match c with
  | 0x0#4 => some .al | 0x1#4 => some .vs | 0x2#4 => some .cs | 0x3#4 => some .hi
  | 0x4#4 => some .eq | 0x5#4 => some .mi | 0x6#4 => some .gt | 0x7#4 => none
  | 0x8#4 => some .nv | 0x9#4 => some .vc | 0xA#4 => some .cc | 0xB#4 => some .ls
  | 0xC#4 => some .ne | 0xD#4 => some .pl | 0xE#4 => some .le | 0xF#4 => some .f
  | _ => none

/-- The checks of R77 step 1 on the condition byte, in the order V bits, code, `rr`. -/
def decodeGuard (w : Word) : Except Reject Guard :=
  if fieldV w != 0#2 then .error .reservedV
  else match condOfCode (fieldCccc w) with
    | none => .error .reservedCond
    | some c =>
      if Guard.wellFormed ⟨c, fieldRr w⟩ then .ok ⟨c, fieldRr w⟩ else .error .rrNotZero

/-! ## Standard instructions, format by format -/

/-- Accept `i` when the must-be-zero bits are zero (R87 d). -/
def needZero (g : Guard) (zero : Bool) (i : Instr) : Except Reject Instr :=
  if zero then .ok i else .error (.mustBeZero g)

/-- Zero-operand format, opcode bytes 0x08-0x0F (R76). -/
def decodeZero (o : BitVec 3) (g : Guard) (lo : Half) : Except Reject Instr :=
  match o with
  | 0x0#3 => needZero g (lo == 0#16) (.ret g)
  | 0x1#3 => needZero g (lo == 0#16) (.fret g)
  | 0x2#3 => needZero g (lo == 0#16) (.sleep g)
  | 0x3#3 => needZero g (lo == 0#16) (.rfi g)
  | 0x4#3 => .ok (.rsvd0C g lo)
  | 0x5#3 => .ok (.rsvd0D g lo)
  | 0x6#3 => .ok (.rsvd0E g lo)
  | _ => needZero g (lo == 0#16) (.brk g)  -- 0x0F

/-- One-operand format, opcode bytes 0x10-0x1F (R75). -/
def decodeOne (o : BitVec 4) (g : Guard) (lo : Half) : Except Reject Instr :=
  match o with
  | 0x0#4 => .ok (.ba g lo)
  | 0x1#4 => .ok (.br g lo)
  | 0x2#4 => .ok (.jf g lo)
  | 0x3#4 => .ok (.last g lo)
  | 0x4#4 => .ok (.call g lo)
  | 0x5#4 => .ok (.callr g lo)
  | 0x6#4 => .ok (.fcall g lo)
  | 0x7#4 => .ok (.fcallr g lo)
  | 0x8#4 => .ok (.int g lo)
  | 0x9#4 => needZero g (lo.extractLsb' 4 12 == 0#12) (.intX g (operandX lo))
  | 0xA#4 => .ok (.lil g lo)
  | 0xB#4 => .ok (.lih g lo)
  | 0xC#4 => needZero g (lo.extractLsb' 4 12 == 0#12) (.callX g (operandX lo))
  | 0xD#4 => needZero g (lo.extractLsb' 4 12 == 0#12) (.callrX g (operandX lo))
  | 0xE#4 => needZero g (lo.extractLsb' 4 12 == 0#12) (.fcallX g (operandX lo))
  | _ => needZero g (lo.extractLsb' 4 12 == 0#12) (.fcallrX g (operandX lo))  -- 0x1F

/-- Two-operand format, opcode bytes 0x20-0x2F (R74). -/
def decodeTwo (o : BitVec 4) (g : Guard) (lo : Half) : Except Reject Instr :=
  match o with
  | 0x0#4 => needZero g (lo.extractLsb' 8 8 == 0#8) (.mov g (operandX lo) (operandY lo))
  | 0x1#4 => needZero g (lo.extractLsb' 8 8 == 0#8) (.swp g (operandX lo) (operandY lo))
  | 0x2#4 => needZero g (lo.extractLsb' 8 8 == 0#8) (.not g (operandX lo) (operandY lo))
  | 0x3#4 => needZero g (lo.extractLsb' 8 8 == 0#8) (.cmp g (operandX lo) (operandY lo))
  | 0x4#4 => needZero g (lo.extractLsb' 8 8 == 0#8) (.sxb g (operandX lo) (operandY lo))
  | 0x5#4 => needZero g (lo.extractLsb' 8 8 == 0#8) (.sxw g (operandX lo) (operandY lo))
  | 0x6#4 => needZero g (lo.extractLsb' 8 8 == 0#8) (.zxb g (operandX lo) (operandY lo))
  | 0x7#4 => needZero g (lo.extractLsb' 8 8 == 0#8) (.zxw g (operandX lo) (operandY lo))
  | 0x8#4 => .ok (.rsvd28 g lo)
  | 0x9#4 => .ok (.rsvd29 g lo)
  | 0xA#4 => .ok (.rsvd2A g lo)
  | 0xB#4 => .ok (.rsvd2B g lo)
  | 0xC#4 => needZero g (lo.extractLsb' 8 8 == 0#8) (.mvhh g (operandX lo) (operandY lo))
  | 0xD#4 => needZero g (lo.extractLsb' 8 8 == 0#8) (.mvhl g (operandX lo) (operandY lo))
  | 0xE#4 => needZero g (lo.extractLsb' 8 8 == 0#8) (.mvlh g (operandX lo) (operandY lo))
  | _ => needZero g (lo.extractLsb' 8 8 == 0#8) (.mvll g (operandX lo) (operandY lo))  -- 0x2F

/-- Two-operand format, opcode bytes 0x30-0x3F (R74). -/
def decodeTwoImm (o : BitVec 4) (g : Guard) (lo : Half) : Except Reject Instr :=
  match o with
  | 0x0#4 => .ok (.addN12 g (operandX lo) (operandN12 lo))
  | 0x1#4 => .ok (.subN12 g (operandX lo) (operandN12 lo))
  | 0x2#4 => .ok (.rsvd32 g lo)
  | 0x3#4 => .ok (.rsvd33 g lo)
  | 0x4#4 => .ok (.rsvd34 g lo)
  | 0x5#4 => .ok (.rsvd35 g lo)
  | 0x6#4 => .ok (.rsvd36 g lo)
  | 0x7#4 => .ok (.rsvd37 g lo)
  | 0x8#4 => needZero g (lo.extractLsb' 8 8 == 0#8) (.smovTo g (operandX lo) (operandY lo))
  | 0x9#4 => needZero g (lo.extractLsb' 8 8 == 0#8) (.smovFrom g (operandX lo) (operandY lo))
  | 0xA#4 => .ok (.rsvd3A g lo)
  | 0xB#4 => .ok (.rsvd3B g lo)
  | 0xC#4 => .ok (.rsvd3C g lo)
  | 0xD#4 => .ok (.rsvd3D g lo)
  | 0xE#4 => .ok (.rsvd3E g lo)
  | _ => .ok (.rsvd3F g lo)  -- 0x3F

/-- Three-operand format, register ALU block 0x40-0x4F (R73). -/
def decodeAlu (o : BitVec 4) (g : Guard) (lo : Half) : Except Reject Instr :=
  match o with
  | 0x0#4 => needZero g (lo.extractLsb' 12 4 == 0#4) (.add g (operandX lo) (operandY lo) (operandZ lo))
  | 0x1#4 => needZero g (lo.extractLsb' 12 4 == 0#4) (.sub g (operandX lo) (operandY lo) (operandZ lo))
  | 0x2#4 => needZero g (lo.extractLsb' 12 4 == 0#4) (.umul g (operandX lo) (operandY lo) (operandZ lo))
  | 0x3#4 => needZero g (lo.extractLsb' 12 4 == 0#4) (.smul g (operandX lo) (operandY lo) (operandZ lo))
  | 0x4#4 => needZero g (lo.extractLsb' 12 4 == 0#4) (.udiv g (operandX lo) (operandY lo) (operandZ lo))
  | 0x5#4 => needZero g (lo.extractLsb' 12 4 == 0#4) (.sdiv g (operandX lo) (operandY lo) (operandZ lo))
  | 0x6#4 => .ok (.rsvd46 g lo)
  | 0x7#4 => .ok (.rsvd47 g lo)
  | 0x8#4 => needZero g (lo.extractLsb' 12 4 == 0#4) (.and g (operandX lo) (operandY lo) (operandZ lo))
  | 0x9#4 => needZero g (lo.extractLsb' 12 4 == 0#4) (.or g (operandX lo) (operandY lo) (operandZ lo))
  | 0xA#4 => needZero g (lo.extractLsb' 12 4 == 0#4) (.xor g (operandX lo) (operandY lo) (operandZ lo))
  | 0xB#4 => needZero g (lo.extractLsb' 12 4 == 0#4) (.shl g (operandX lo) (operandY lo) (operandZ lo))
  | 0xC#4 => needZero g (lo.extractLsb' 12 4 == 0#4) (.shr g (operandX lo) (operandY lo) (operandZ lo))
  | 0xD#4 => needZero g (lo.extractLsb' 12 4 == 0#4) (.sar g (operandX lo) (operandY lo) (operandZ lo))
  | 0xE#4 => needZero g (lo.extractLsb' 12 4 == 0#4) (.rotl g (operandX lo) (operandY lo) (operandZ lo))
  | _ => needZero g (lo.extractLsb' 12 4 == 0#4) (.rotr g (operandX lo) (operandY lo) (operandZ lo))  -- 0x4F

/-- Three-operand format, immediate ALU block 0x50-0x5F (R73). -/
def decodeAluImm (o : BitVec 4) (g : Guard) (lo : Half) : Except Reject Instr :=
  match o with
  | 0x0#4 => .ok (.addN g (operandX lo) (operandY lo) (operandN8 lo))
  | 0x1#4 => .ok (.subN g (operandX lo) (operandY lo) (operandN8 lo))
  | 0x2#4 => .ok (.umulN g (operandX lo) (operandY lo) (operandN8 lo))
  | 0x3#4 => .ok (.smulN g (operandX lo) (operandY lo) (operandN8 lo))
  | 0x4#4 => .ok (.udivN g (operandX lo) (operandY lo) (operandN8 lo))
  | 0x5#4 => .ok (.sdivN g (operandX lo) (operandY lo) (operandN8 lo))
  | 0x6#4 => .ok (.rsvd56 g lo)
  | 0x7#4 => .ok (.rsvd57 g lo)
  | 0x8#4 => .ok (.andN g (operandX lo) (operandY lo) (operandN8 lo))
  | 0x9#4 => .ok (.orN g (operandX lo) (operandY lo) (operandN8 lo))
  | 0xA#4 => .ok (.xorN g (operandX lo) (operandY lo) (operandN8 lo))
  | 0xB#4 => .ok (.shlN g (operandX lo) (operandY lo) (operandN8 lo))
  | 0xC#4 => .ok (.shrN g (operandX lo) (operandY lo) (operandN8 lo))
  | 0xD#4 => .ok (.sarN g (operandX lo) (operandY lo) (operandN8 lo))
  | 0xE#4 => .ok (.rotlN g (operandX lo) (operandY lo) (operandN8 lo))
  | _ => .ok (.rotrN g (operandX lo) (operandY lo) (operandN8 lo))  -- 0x5F

/-- Three-operand format, stores 0x60-0x6F (R73). -/
def decodeStore (o : BitVec 4) (g : Guard) (lo : Half) : Except Reject Instr :=
  match o with
  | 0x0#4 => .ok (.stb g (operandX lo) (operandY lo) (operandN8 lo))
  | 0x1#4 => .ok (.stbi g (operandX lo) (operandY lo) (operandN8 lo))
  | 0x2#4 => .ok (.stbp g (operandX lo) (operandY lo) (operandN8 lo))
  | 0x3#4 => .ok (.stbd g (operandX lo) (operandY lo) (operandN8 lo))
  | 0x4#4 => .ok (.sth g (operandX lo) (operandY lo) (operandN8 lo))
  | 0x5#4 => .ok (.sthi g (operandX lo) (operandY lo) (operandN8 lo))
  | 0x6#4 => .ok (.sthp g (operandX lo) (operandY lo) (operandN8 lo))
  | 0x7#4 => .ok (.sthd g (operandX lo) (operandY lo) (operandN8 lo))
  | 0x8#4 => .ok (.stw g (operandX lo) (operandY lo) (operandN8 lo))
  | 0x9#4 => .ok (.stwi g (operandX lo) (operandY lo) (operandN8 lo))
  | 0xA#4 => .ok (.stwp g (operandX lo) (operandY lo) (operandN8 lo))
  | 0xB#4 => .ok (.stwd g (operandX lo) (operandY lo) (operandN8 lo))
  | 0xC#4 => needZero g (lo.extractLsb' 12 4 == 0#4) (.stbx g (operandX lo) (operandY lo) (operandZ lo))
  | 0xD#4 => needZero g (lo.extractLsb' 12 4 == 0#4) (.sthx g (operandX lo) (operandY lo) (operandZ lo))
  | 0xE#4 => needZero g (lo.extractLsb' 12 4 == 0#4) (.stwx g (operandX lo) (operandY lo) (operandZ lo))
  | _ => needZero g (lo.extractLsb' 12 4 == 0#4) (.stwxi g (operandX lo) (operandY lo) (operandZ lo))  -- 0x6F

/-- Three-operand format, loads 0x70-0x7F (R73). -/
def decodeLoad (o : BitVec 4) (g : Guard) (lo : Half) : Except Reject Instr :=
  match o with
  | 0x0#4 => .ok (.lb g (operandX lo) (operandY lo) (operandN8 lo))
  | 0x1#4 => .ok (.lbi g (operandX lo) (operandY lo) (operandN8 lo))
  | 0x2#4 => .ok (.lbp g (operandX lo) (operandY lo) (operandN8 lo))
  | 0x3#4 => .ok (.lbd g (operandX lo) (operandY lo) (operandN8 lo))
  | 0x4#4 => .ok (.lh g (operandX lo) (operandY lo) (operandN8 lo))
  | 0x5#4 => .ok (.lhi g (operandX lo) (operandY lo) (operandN8 lo))
  | 0x6#4 => .ok (.lhp g (operandX lo) (operandY lo) (operandN8 lo))
  | 0x7#4 => .ok (.lhd g (operandX lo) (operandY lo) (operandN8 lo))
  | 0x8#4 => .ok (.lw g (operandX lo) (operandY lo) (operandN8 lo))
  | 0x9#4 => .ok (.lwi g (operandX lo) (operandY lo) (operandN8 lo))
  | 0xA#4 => .ok (.lwp g (operandX lo) (operandY lo) (operandN8 lo))
  | 0xB#4 => .ok (.lwd g (operandX lo) (operandY lo) (operandN8 lo))
  | 0xC#4 => needZero g (lo.extractLsb' 12 4 == 0#4) (.lbx g (operandX lo) (operandY lo) (operandZ lo))
  | 0xD#4 => needZero g (lo.extractLsb' 12 4 == 0#4) (.lhx g (operandX lo) (operandY lo) (operandZ lo))
  | 0xE#4 => needZero g (lo.extractLsb' 12 4 == 0#4) (.lwx g (operandX lo) (operandY lo) (operandZ lo))
  | _ => needZero g (lo.extractLsb' 12 4 == 0#4) (.lwxi g (operandX lo) (operandY lo) (operandZ lo))  -- 0x7F

/-- The format of an opcode byte by its high nibble (R72). -/
def decodeOp (op : BitVec 8) (g : Guard) (lo : Half) : Except Reject Instr :=
  match op.extractLsb' 4 4 with
  | 0x0#4 =>
    if op.getLsbD 3 then decodeZero (op.extractLsb' 0 3) g lo
    else .ok (.rsvd00 g (op.extractLsb' 0 3) lo)
  | 0x1#4 => decodeOne (op.extractLsb' 0 4) g lo
  | 0x2#4 => decodeTwo (op.extractLsb' 0 4) g lo
  | 0x3#4 => decodeTwoImm (op.extractLsb' 0 4) g lo
  | 0x4#4 => decodeAlu (op.extractLsb' 0 4) g lo
  | 0x5#4 => decodeAluImm (op.extractLsb' 0 4) g lo
  | 0x6#4 => decodeStore (op.extractLsb' 0 4) g lo
  | 0x7#4 => decodeLoad (op.extractLsb' 0 4) g lo
  | _ => .error .compactWord

/-- One standard instruction: bit 31, then the condition byte, then the opcode and its operand bits (R70, R77). -/
def decodeStd (w : Word) : Except Reject Instr :=
  if w.msb then .error .compactWord
  else match decodeGuard w with
    | .error e => .error e
    | .ok g => decodeOp (fieldOp w) g (fieldLo w)

/-! ## Compact instructions, class by class -/

/-- The primary operand `w`, bits 3:0 (R90). -/
def compactW (lo : BitVec 8) : BitVec 4 := lo.extractLsb' 0 4
/-- The secondary operand `q`, bits 7:4 (R90). -/
def compactQ (lo : BitVec 8) : BitVec 4 := lo.extractLsb' 4 4

/-- Class C-1, operation bytes 0x90-0x9F (R238). -/
def decodeC1 (o : BitVec 4) (lo : BitVec 8) : Instr :=
  match o with
  | 0x0#4 => .cBa lo
  | 0x1#4 => .cBr lo
  | 0x2#4 => .cJf lo
  | 0x3#4 => .cLast lo
  | 0x4#4 => .cCall lo
  | 0x5#4 => .cCallr lo
  | 0x6#4 => .cFcall lo
  | 0x7#4 => .cFcallr lo
  | 0x8#4 => .cInt lo
  | 0x9#4 => .cIntX (compactQ lo) (compactW lo)
  | 0xA#4 => .cLil lo
  | 0xB#4 => .cLih lo
  | 0xC#4 => .cCallX (compactQ lo) (compactW lo)
  | 0xD#4 => .cCallrX (compactQ lo) (compactW lo)
  | 0xE#4 => .cFcallX (compactQ lo) (compactW lo)
  | _ => .cFcallrX (compactQ lo) (compactW lo)  -- 0x9F

/-- Class C-2R, operation bytes 0xA0-0xAF (R234). -/
def decodeC2R (o : BitVec 4) (lo : BitVec 8) : Instr :=
  match o with
  | 0x0#4 => .cMov (compactW lo) (compactQ lo)
  | 0x1#4 => .cSwp (compactW lo) (compactQ lo)
  | 0x2#4 => .cNot (compactW lo) (compactQ lo)
  | 0x3#4 => .cCmp (compactW lo) (compactQ lo)
  | 0x4#4 => .cSxb (compactW lo) (compactQ lo)
  | 0x5#4 => .cSxw (compactW lo) (compactQ lo)
  | 0x6#4 => .cZxb (compactW lo) (compactQ lo)
  | 0x7#4 => .cZxw (compactW lo) (compactQ lo)
  | 0x8#4 => .cRsvdA8 lo
  | 0x9#4 => .cRsvdA9 lo
  | 0xA#4 => .cRsvdAA lo
  | 0xB#4 => .cRsvdAB lo
  | 0xC#4 => .cMvhh (compactW lo) (compactQ lo)
  | 0xD#4 => .cMvhl (compactW lo) (compactQ lo)
  | 0xE#4 => .cMvlh (compactW lo) (compactQ lo)
  | _ => .cMvll (compactW lo) (compactQ lo)  -- 0xAF

/-- Class C-2I, operation bytes 0xB0-0xBF (R235). -/
def decodeC2I (o : BitVec 4) (lo : BitVec 8) : Instr :=
  match o with
  | 0x0#4 => .cAddN12 (compactW lo) (compactQ lo)
  | 0x1#4 => .cSubN12 (compactW lo) (compactQ lo)
  | 0x2#4 => .cRsvdB2 lo
  | 0x3#4 => .cRsvdB3 lo
  | 0x4#4 => .cRsvdB4 lo
  | 0x5#4 => .cRsvdB5 lo
  | 0x6#4 => .cRsvdB6 lo
  | 0x7#4 => .cRsvdB7 lo
  | 0x8#4 => .cSmovTo (compactW lo) (compactQ lo)
  | 0x9#4 => .cSmovFrom (compactW lo) (compactQ lo)
  | 0xA#4 => .cRsvdBA lo
  | 0xB#4 => .cRsvdBB lo
  | 0xC#4 => .cRsvdBC lo
  | 0xD#4 => .cRsvdBD lo
  | 0xE#4 => .cRsvdBE lo
  | _ => .cRsvdBF lo  -- 0xBF

/-- Class C-ALU-R, operation bytes 0xC0-0xCF (R232). -/
def decodeCAluR (o : BitVec 4) (lo : BitVec 8) : Instr :=
  match o with
  | 0x0#4 => .cAdd (compactW lo) (compactQ lo)
  | 0x1#4 => .cSub (compactW lo) (compactQ lo)
  | 0x2#4 => .cUmul (compactW lo) (compactQ lo)
  | 0x3#4 => .cSmul (compactW lo) (compactQ lo)
  | 0x4#4 => .cUdiv (compactW lo) (compactQ lo)
  | 0x5#4 => .cSdiv (compactW lo) (compactQ lo)
  | 0x6#4 => .cRsvdC6 lo
  | 0x7#4 => .cRsvdC7 lo
  | 0x8#4 => .cAnd (compactW lo) (compactQ lo)
  | 0x9#4 => .cOr (compactW lo) (compactQ lo)
  | 0xA#4 => .cXor (compactW lo) (compactQ lo)
  | 0xB#4 => .cShl (compactW lo) (compactQ lo)
  | 0xC#4 => .cShr (compactW lo) (compactQ lo)
  | 0xD#4 => .cSar (compactW lo) (compactQ lo)
  | 0xE#4 => .cRotl (compactW lo) (compactQ lo)
  | _ => .cRotr (compactW lo) (compactQ lo)  -- 0xCF

/-- Class C-ALU-I, operation bytes 0xD0-0xDF (R233). -/
def decodeCAluI (o : BitVec 4) (lo : BitVec 8) : Instr :=
  match o with
  | 0x0#4 => .cAddN (compactW lo) (compactQ lo)
  | 0x1#4 => .cSubN (compactW lo) (compactQ lo)
  | 0x2#4 => .cUmulN (compactW lo) (compactQ lo)
  | 0x3#4 => .cSmulN (compactW lo) (compactQ lo)
  | 0x4#4 => .cUdivN (compactW lo) (compactQ lo)
  | 0x5#4 => .cSdivN (compactW lo) (compactQ lo)
  | 0x6#4 => .cRsvdD6 lo
  | 0x7#4 => .cRsvdD7 lo
  | 0x8#4 => .cAndN (compactW lo) (compactQ lo)
  | 0x9#4 => .cOrN (compactW lo) (compactQ lo)
  | 0xA#4 => .cXorN (compactW lo) (compactQ lo)
  | 0xB#4 => .cShlN (compactW lo) (compactQ lo)
  | 0xC#4 => .cShrN (compactW lo) (compactQ lo)
  | 0xD#4 => .cSarN (compactW lo) (compactQ lo)
  | 0xE#4 => .cRotlN (compactW lo) (compactQ lo)
  | _ => .cRotrN (compactW lo) (compactQ lo)  -- 0xDF

/-- Class C-ST, operation bytes 0xE0-0xEF (R236). -/
def decodeCSt (o : BitVec 4) (lo : BitVec 8) : Instr :=
  match o with
  | 0x0#4 => .cStb (compactQ lo) (compactW lo)
  | 0x1#4 => .cStbi (compactQ lo) (compactW lo)
  | 0x2#4 => .cStbp (compactQ lo) (compactW lo)
  | 0x3#4 => .cStbd (compactQ lo) (compactW lo)
  | 0x4#4 => .cSth (compactQ lo) (compactW lo)
  | 0x5#4 => .cSthi (compactQ lo) (compactW lo)
  | 0x6#4 => .cSthp (compactQ lo) (compactW lo)
  | 0x7#4 => .cSthd (compactQ lo) (compactW lo)
  | 0x8#4 => .cStw (compactQ lo) (compactW lo)
  | 0x9#4 => .cStwi (compactQ lo) (compactW lo)
  | 0xA#4 => .cStwp (compactQ lo) (compactW lo)
  | 0xB#4 => .cStwd (compactQ lo) (compactW lo)
  | 0xC#4 => .cStbx (compactW lo) (compactQ lo)
  | 0xD#4 => .cSthx (compactW lo) (compactQ lo)
  | 0xE#4 => .cStwx (compactW lo) (compactQ lo)
  | _ => .cStwxi (compactW lo) (compactQ lo)  -- 0xEF

/-- Class C-LD, operation bytes 0xF0-0xFF (R237). -/
def decodeCLd (o : BitVec 4) (lo : BitVec 8) : Instr :=
  match o with
  | 0x0#4 => .cLb (compactQ lo) (compactW lo)
  | 0x1#4 => .cLbi (compactQ lo) (compactW lo)
  | 0x2#4 => .cLbp (compactQ lo) (compactW lo)
  | 0x3#4 => .cLbd (compactQ lo) (compactW lo)
  | 0x4#4 => .cLh (compactQ lo) (compactW lo)
  | 0x5#4 => .cLhi (compactQ lo) (compactW lo)
  | 0x6#4 => .cLhp (compactQ lo) (compactW lo)
  | 0x7#4 => .cLhd (compactQ lo) (compactW lo)
  | 0x8#4 => .cLw (compactQ lo) (compactW lo)
  | 0x9#4 => .cLwi (compactQ lo) (compactW lo)
  | 0xA#4 => .cLwp (compactQ lo) (compactW lo)
  | 0xB#4 => .cLwd (compactQ lo) (compactW lo)
  | 0xC#4 => .cLbx (compactW lo) (compactQ lo)
  | 0xD#4 => .cLhx (compactW lo) (compactQ lo)
  | 0xE#4 => .cLwx (compactW lo) (compactQ lo)
  | _ => .cLwxi (compactW lo) (compactQ lo)  -- 0xFF

/-- One compact instruction `h`: the class `h[15:12]`, the operation `h[11:8]`, the operands `h[7:0]` (R90, R92). -/
def decodeHalf (h : Half) : Except Reject Instr :=
  match h.extractLsb' 12 4 with
  | 0x8#4 => .ok (.cRsvd80 (h.extractLsb' 8 4) (h.extractLsb' 0 8))
  | 0x9#4 => .ok (decodeC1 (h.extractLsb' 8 4) (h.extractLsb' 0 8))
  | 0xA#4 => .ok (decodeC2R (h.extractLsb' 8 4) (h.extractLsb' 0 8))
  | 0xB#4 => .ok (decodeC2I (h.extractLsb' 8 4) (h.extractLsb' 0 8))
  | 0xC#4 => .ok (decodeCAluR (h.extractLsb' 8 4) (h.extractLsb' 0 8))
  | 0xD#4 => .ok (decodeCAluI (h.extractLsb' 8 4) (h.extractLsb' 0 8))
  | 0xE#4 => .ok (decodeCSt (h.extractLsb' 8 4) (h.extractLsb' 0 8))
  | 0xF#4 => .ok (decodeCLd (h.extractLsb' 8 4) (h.extractLsb' 0 8))
  | _ => .error .markerClear

/-! ## The encoder (R98) -/

/-- A standard word from its parts (R98). -/
def stdWord (op : BitVec 8) (g : Guard) (lo : Half) : Word :=
  op ++ 0#2 ++ g.rr ++ condCode g.cond ++ lo

/-- The operand half `0000zzzz yyyyxxxx` (R73). -/
def loXYZ (x y z : Reg) : Half := 0#4 ++ z ++ y ++ x
/-- The operand half `nnnnnnnn yyyyxxxx` (R73). -/
def loXYN (x y : Reg) (n : BitVec 8) : Half := n ++ y ++ x
/-- The operand half `00000000 yyyyxxxx` (R74). -/
def loXY (x y : Reg) : Half := 0#8 ++ y ++ x
/-- The operand half `nnnnnnnn nnnnxxxx` (R74). -/
def loXN (x : Reg) (n : BitVec 12) : Half := n ++ x
/-- The operand half `00000000 0000xxxx` (R75). -/
def loX (x : Reg) : Half := 0#12 ++ x

/-- A compact halfword from its operation byte, `q` and `w`, in the low half of a word (R90, R98). -/
def halfWord (op : BitVec 8) (q w : BitVec 4) : Word := 0#16 ++ op ++ q ++ w

/-- The bits of an instruction: all 32 of a standard instruction, the low 16 of a compact one (R98). -/
def encode : Instr → Word
  | .rsvd00 g k lo => stdWord (0#5 ++ k) g lo
  | .ret g => stdWord 0x08#8 g 0#16
  | .fret g => stdWord 0x09#8 g 0#16
  | .sleep g => stdWord 0x0A#8 g 0#16
  | .rfi g => stdWord 0x0B#8 g 0#16
  | .rsvd0C g lo => stdWord 0x0C#8 g lo
  | .rsvd0D g lo => stdWord 0x0D#8 g lo
  | .rsvd0E g lo => stdWord 0x0E#8 g lo
  | .brk g => stdWord 0x0F#8 g 0#16
  | .ba g n => stdWord 0x10#8 g n
  | .br g n => stdWord 0x11#8 g n
  | .jf g n => stdWord 0x12#8 g n
  | .last g n => stdWord 0x13#8 g n
  | .call g n => stdWord 0x14#8 g n
  | .callr g n => stdWord 0x15#8 g n
  | .fcall g n => stdWord 0x16#8 g n
  | .fcallr g n => stdWord 0x17#8 g n
  | .int g n => stdWord 0x18#8 g n
  | .intX g x => stdWord 0x19#8 g (loX x)
  | .lil g n => stdWord 0x1A#8 g n
  | .lih g n => stdWord 0x1B#8 g n
  | .callX g x => stdWord 0x1C#8 g (loX x)
  | .callrX g x => stdWord 0x1D#8 g (loX x)
  | .fcallX g x => stdWord 0x1E#8 g (loX x)
  | .fcallrX g x => stdWord 0x1F#8 g (loX x)
  | .mov g x y => stdWord 0x20#8 g (loXY x y)
  | .swp g x y => stdWord 0x21#8 g (loXY x y)
  | .not g x y => stdWord 0x22#8 g (loXY x y)
  | .cmp g x y => stdWord 0x23#8 g (loXY x y)
  | .sxb g x y => stdWord 0x24#8 g (loXY x y)
  | .sxw g x y => stdWord 0x25#8 g (loXY x y)
  | .zxb g x y => stdWord 0x26#8 g (loXY x y)
  | .zxw g x y => stdWord 0x27#8 g (loXY x y)
  | .rsvd28 g lo => stdWord 0x28#8 g lo
  | .rsvd29 g lo => stdWord 0x29#8 g lo
  | .rsvd2A g lo => stdWord 0x2A#8 g lo
  | .rsvd2B g lo => stdWord 0x2B#8 g lo
  | .mvhh g x y => stdWord 0x2C#8 g (loXY x y)
  | .mvhl g x y => stdWord 0x2D#8 g (loXY x y)
  | .mvlh g x y => stdWord 0x2E#8 g (loXY x y)
  | .mvll g x y => stdWord 0x2F#8 g (loXY x y)
  | .addN12 g x n => stdWord 0x30#8 g (loXN x n)
  | .subN12 g x n => stdWord 0x31#8 g (loXN x n)
  | .rsvd32 g lo => stdWord 0x32#8 g lo
  | .rsvd33 g lo => stdWord 0x33#8 g lo
  | .rsvd34 g lo => stdWord 0x34#8 g lo
  | .rsvd35 g lo => stdWord 0x35#8 g lo
  | .rsvd36 g lo => stdWord 0x36#8 g lo
  | .rsvd37 g lo => stdWord 0x37#8 g lo
  | .smovTo g x y => stdWord 0x38#8 g (loXY x y)
  | .smovFrom g x y => stdWord 0x39#8 g (loXY x y)
  | .rsvd3A g lo => stdWord 0x3A#8 g lo
  | .rsvd3B g lo => stdWord 0x3B#8 g lo
  | .rsvd3C g lo => stdWord 0x3C#8 g lo
  | .rsvd3D g lo => stdWord 0x3D#8 g lo
  | .rsvd3E g lo => stdWord 0x3E#8 g lo
  | .rsvd3F g lo => stdWord 0x3F#8 g lo
  | .add g x y z => stdWord 0x40#8 g (loXYZ x y z)
  | .sub g x y z => stdWord 0x41#8 g (loXYZ x y z)
  | .umul g x y z => stdWord 0x42#8 g (loXYZ x y z)
  | .smul g x y z => stdWord 0x43#8 g (loXYZ x y z)
  | .udiv g x y z => stdWord 0x44#8 g (loXYZ x y z)
  | .sdiv g x y z => stdWord 0x45#8 g (loXYZ x y z)
  | .rsvd46 g lo => stdWord 0x46#8 g lo
  | .rsvd47 g lo => stdWord 0x47#8 g lo
  | .and g x y z => stdWord 0x48#8 g (loXYZ x y z)
  | .or g x y z => stdWord 0x49#8 g (loXYZ x y z)
  | .xor g x y z => stdWord 0x4A#8 g (loXYZ x y z)
  | .shl g x y z => stdWord 0x4B#8 g (loXYZ x y z)
  | .shr g x y z => stdWord 0x4C#8 g (loXYZ x y z)
  | .sar g x y z => stdWord 0x4D#8 g (loXYZ x y z)
  | .rotl g x y z => stdWord 0x4E#8 g (loXYZ x y z)
  | .rotr g x y z => stdWord 0x4F#8 g (loXYZ x y z)
  | .addN g x y n => stdWord 0x50#8 g (loXYN x y n)
  | .subN g x y n => stdWord 0x51#8 g (loXYN x y n)
  | .umulN g x y n => stdWord 0x52#8 g (loXYN x y n)
  | .smulN g x y n => stdWord 0x53#8 g (loXYN x y n)
  | .udivN g x y n => stdWord 0x54#8 g (loXYN x y n)
  | .sdivN g x y n => stdWord 0x55#8 g (loXYN x y n)
  | .rsvd56 g lo => stdWord 0x56#8 g lo
  | .rsvd57 g lo => stdWord 0x57#8 g lo
  | .andN g x y n => stdWord 0x58#8 g (loXYN x y n)
  | .orN g x y n => stdWord 0x59#8 g (loXYN x y n)
  | .xorN g x y n => stdWord 0x5A#8 g (loXYN x y n)
  | .shlN g x y n => stdWord 0x5B#8 g (loXYN x y n)
  | .shrN g x y n => stdWord 0x5C#8 g (loXYN x y n)
  | .sarN g x y n => stdWord 0x5D#8 g (loXYN x y n)
  | .rotlN g x y n => stdWord 0x5E#8 g (loXYN x y n)
  | .rotrN g x y n => stdWord 0x5F#8 g (loXYN x y n)
  | .stb g x y n => stdWord 0x60#8 g (loXYN x y n)
  | .stbi g x y n => stdWord 0x61#8 g (loXYN x y n)
  | .stbp g x y n => stdWord 0x62#8 g (loXYN x y n)
  | .stbd g x y n => stdWord 0x63#8 g (loXYN x y n)
  | .sth g x y n => stdWord 0x64#8 g (loXYN x y n)
  | .sthi g x y n => stdWord 0x65#8 g (loXYN x y n)
  | .sthp g x y n => stdWord 0x66#8 g (loXYN x y n)
  | .sthd g x y n => stdWord 0x67#8 g (loXYN x y n)
  | .stw g x y n => stdWord 0x68#8 g (loXYN x y n)
  | .stwi g x y n => stdWord 0x69#8 g (loXYN x y n)
  | .stwp g x y n => stdWord 0x6A#8 g (loXYN x y n)
  | .stwd g x y n => stdWord 0x6B#8 g (loXYN x y n)
  | .stbx g x y z => stdWord 0x6C#8 g (loXYZ x y z)
  | .sthx g x y z => stdWord 0x6D#8 g (loXYZ x y z)
  | .stwx g x y z => stdWord 0x6E#8 g (loXYZ x y z)
  | .stwxi g x y z => stdWord 0x6F#8 g (loXYZ x y z)
  | .lb g x y n => stdWord 0x70#8 g (loXYN x y n)
  | .lbi g x y n => stdWord 0x71#8 g (loXYN x y n)
  | .lbp g x y n => stdWord 0x72#8 g (loXYN x y n)
  | .lbd g x y n => stdWord 0x73#8 g (loXYN x y n)
  | .lh g x y n => stdWord 0x74#8 g (loXYN x y n)
  | .lhi g x y n => stdWord 0x75#8 g (loXYN x y n)
  | .lhp g x y n => stdWord 0x76#8 g (loXYN x y n)
  | .lhd g x y n => stdWord 0x77#8 g (loXYN x y n)
  | .lw g x y n => stdWord 0x78#8 g (loXYN x y n)
  | .lwi g x y n => stdWord 0x79#8 g (loXYN x y n)
  | .lwp g x y n => stdWord 0x7A#8 g (loXYN x y n)
  | .lwd g x y n => stdWord 0x7B#8 g (loXYN x y n)
  | .lbx g x y z => stdWord 0x7C#8 g (loXYZ x y z)
  | .lhx g x y z => stdWord 0x7D#8 g (loXYZ x y z)
  | .lwx g x y z => stdWord 0x7E#8 g (loXYZ x y z)
  | .lwxi g x y z => stdWord 0x7F#8 g (loXYZ x y z)
  | .cRsvd80 k lo => halfWord (0x8#4 ++ k) (compactQ lo) (compactW lo)
  | .cBa n => halfWord 0x90#8 (compactQ n) (compactW n)
  | .cBr n => halfWord 0x91#8 (compactQ n) (compactW n)
  | .cJf n => halfWord 0x92#8 (compactQ n) (compactW n)
  | .cLast n => halfWord 0x93#8 (compactQ n) (compactW n)
  | .cCall n => halfWord 0x94#8 (compactQ n) (compactW n)
  | .cCallr n => halfWord 0x95#8 (compactQ n) (compactW n)
  | .cFcall n => halfWord 0x96#8 (compactQ n) (compactW n)
  | .cFcallr n => halfWord 0x97#8 (compactQ n) (compactW n)
  | .cInt n => halfWord 0x98#8 (compactQ n) (compactW n)
  | .cIntX q x => halfWord 0x99#8 q x
  | .cLil n => halfWord 0x9A#8 (compactQ n) (compactW n)
  | .cLih n => halfWord 0x9B#8 (compactQ n) (compactW n)
  | .cCallX q x => halfWord 0x9C#8 q x
  | .cCallrX q x => halfWord 0x9D#8 q x
  | .cFcallX q x => halfWord 0x9E#8 q x
  | .cFcallrX q x => halfWord 0x9F#8 q x
  | .cMov x y => halfWord 0xA0#8 y x
  | .cSwp x y => halfWord 0xA1#8 y x
  | .cNot x y => halfWord 0xA2#8 y x
  | .cCmp x y => halfWord 0xA3#8 y x
  | .cSxb x y => halfWord 0xA4#8 y x
  | .cSxw x y => halfWord 0xA5#8 y x
  | .cZxb x y => halfWord 0xA6#8 y x
  | .cZxw x y => halfWord 0xA7#8 y x
  | .cRsvdA8 lo => halfWord 0xA8#8 (compactQ lo) (compactW lo)
  | .cRsvdA9 lo => halfWord 0xA9#8 (compactQ lo) (compactW lo)
  | .cRsvdAA lo => halfWord 0xAA#8 (compactQ lo) (compactW lo)
  | .cRsvdAB lo => halfWord 0xAB#8 (compactQ lo) (compactW lo)
  | .cMvhh x y => halfWord 0xAC#8 y x
  | .cMvhl x y => halfWord 0xAD#8 y x
  | .cMvlh x y => halfWord 0xAE#8 y x
  | .cMvll x y => halfWord 0xAF#8 y x
  | .cAddN12 x n => halfWord 0xB0#8 n x
  | .cSubN12 x n => halfWord 0xB1#8 n x
  | .cRsvdB2 lo => halfWord 0xB2#8 (compactQ lo) (compactW lo)
  | .cRsvdB3 lo => halfWord 0xB3#8 (compactQ lo) (compactW lo)
  | .cRsvdB4 lo => halfWord 0xB4#8 (compactQ lo) (compactW lo)
  | .cRsvdB5 lo => halfWord 0xB5#8 (compactQ lo) (compactW lo)
  | .cRsvdB6 lo => halfWord 0xB6#8 (compactQ lo) (compactW lo)
  | .cRsvdB7 lo => halfWord 0xB7#8 (compactQ lo) (compactW lo)
  | .cSmovTo x y => halfWord 0xB8#8 y x
  | .cSmovFrom x y => halfWord 0xB9#8 y x
  | .cRsvdBA lo => halfWord 0xBA#8 (compactQ lo) (compactW lo)
  | .cRsvdBB lo => halfWord 0xBB#8 (compactQ lo) (compactW lo)
  | .cRsvdBC lo => halfWord 0xBC#8 (compactQ lo) (compactW lo)
  | .cRsvdBD lo => halfWord 0xBD#8 (compactQ lo) (compactW lo)
  | .cRsvdBE lo => halfWord 0xBE#8 (compactQ lo) (compactW lo)
  | .cRsvdBF lo => halfWord 0xBF#8 (compactQ lo) (compactW lo)
  | .cAdd x z => halfWord 0xC0#8 z x
  | .cSub x z => halfWord 0xC1#8 z x
  | .cUmul x z => halfWord 0xC2#8 z x
  | .cSmul x z => halfWord 0xC3#8 z x
  | .cUdiv x z => halfWord 0xC4#8 z x
  | .cSdiv x z => halfWord 0xC5#8 z x
  | .cRsvdC6 lo => halfWord 0xC6#8 (compactQ lo) (compactW lo)
  | .cRsvdC7 lo => halfWord 0xC7#8 (compactQ lo) (compactW lo)
  | .cAnd x z => halfWord 0xC8#8 z x
  | .cOr x z => halfWord 0xC9#8 z x
  | .cXor x z => halfWord 0xCA#8 z x
  | .cShl x z => halfWord 0xCB#8 z x
  | .cShr x z => halfWord 0xCC#8 z x
  | .cSar x z => halfWord 0xCD#8 z x
  | .cRotl x z => halfWord 0xCE#8 z x
  | .cRotr x z => halfWord 0xCF#8 z x
  | .cAddN x n => halfWord 0xD0#8 n x
  | .cSubN x n => halfWord 0xD1#8 n x
  | .cUmulN x n => halfWord 0xD2#8 n x
  | .cSmulN x n => halfWord 0xD3#8 n x
  | .cUdivN x n => halfWord 0xD4#8 n x
  | .cSdivN x n => halfWord 0xD5#8 n x
  | .cRsvdD6 lo => halfWord 0xD6#8 (compactQ lo) (compactW lo)
  | .cRsvdD7 lo => halfWord 0xD7#8 (compactQ lo) (compactW lo)
  | .cAndN x n => halfWord 0xD8#8 n x
  | .cOrN x n => halfWord 0xD9#8 n x
  | .cXorN x n => halfWord 0xDA#8 n x
  | .cShlN x n => halfWord 0xDB#8 n x
  | .cShrN x n => halfWord 0xDC#8 n x
  | .cSarN x n => halfWord 0xDD#8 n x
  | .cRotlN x n => halfWord 0xDE#8 n x
  | .cRotrN x n => halfWord 0xDF#8 n x
  | .cStb q y => halfWord 0xE0#8 q y
  | .cStbi q y => halfWord 0xE1#8 q y
  | .cStbp q y => halfWord 0xE2#8 q y
  | .cStbd q y => halfWord 0xE3#8 q y
  | .cSth q y => halfWord 0xE4#8 q y
  | .cSthi q y => halfWord 0xE5#8 q y
  | .cSthp q y => halfWord 0xE6#8 q y
  | .cSthd q y => halfWord 0xE7#8 q y
  | .cStw q y => halfWord 0xE8#8 q y
  | .cStwi q y => halfWord 0xE9#8 q y
  | .cStwp q y => halfWord 0xEA#8 q y
  | .cStwd q y => halfWord 0xEB#8 q y
  | .cStbx y z => halfWord 0xEC#8 z y
  | .cSthx y z => halfWord 0xED#8 z y
  | .cStwx y z => halfWord 0xEE#8 z y
  | .cStwxi y z => halfWord 0xEF#8 z y
  | .cLb q x => halfWord 0xF0#8 q x
  | .cLbi q x => halfWord 0xF1#8 q x
  | .cLbp q x => halfWord 0xF2#8 q x
  | .cLbd q x => halfWord 0xF3#8 q x
  | .cLh q x => halfWord 0xF4#8 q x
  | .cLhi q x => halfWord 0xF5#8 q x
  | .cLhp q x => halfWord 0xF6#8 q x
  | .cLhd q x => halfWord 0xF7#8 q x
  | .cLw q x => halfWord 0xF8#8 q x
  | .cLwi q x => halfWord 0xF9#8 q x
  | .cLwp q x => halfWord 0xFA#8 q x
  | .cLwd q x => halfWord 0xFB#8 q x
  | .cLbx x z => halfWord 0xFC#8 z x
  | .cLhx x z => halfWord 0xFD#8 z x
  | .cLwx x z => halfWord 0xFE#8 z x
  | .cLwxi x z => halfWord 0xFF#8 z x

/-- How many bits the table gives an instruction (R70, R90). -/
def Instr.nbits (i : Instr) : Nat := if i.isCompact then 16 else 32

/-- The instruction the decoder reads from `nbits` bits `w`: a standard word or a compact halfword. -/
def decodeTableWord (nbits w : Nat) : Option Instr :=
  if nbits = 32 then (decodeStd (BitVec.ofNat 32 w)).toOption
  else if nbits = 16 then (decodeHalf (BitVec.ofNat 16 w)).toOption
  else none

end Sys2Proof
end

