-- ==== Sys2Proof/Machine/Bits.lean ====
section
/-! DEFINITION. Bit fields of 16- and 32-bit values (00_scope.md R7). -/

namespace Sys2Proof.Machine

/-- `v` with bit `i` set to `b`. -/
def setBit {w : Nat} (v : BitVec w) (i : Nat) (b : Bool) : BitVec w :=
  if b then v ||| BitVec.twoPow w i else v &&& ~~~(BitVec.twoPow w i)

/-- `LOWER_16(v)` (R7). -/
def lower16 (v : Word) : Half := v.extractLsb' 0 16

/-- `HIGHER_16(v)` (R7). -/
def higher16 (v : Word) : Half := v.extractLsb' 16 16

/-- `LOWER_8(v)` (R7). -/
def lower8 (v : Word) : Byte := v.extractLsb' 0 8

/-- `HIGHER_16(v) = h`, the lower half kept. -/
def withHigher16 (v : Word) (h : Half) : Word := h ++ lower16 v

/-- `LOWER_16(v) = h`, the higher half kept. -/
def withLower16 (v : Word) (h : Half) : Word := higher16 v ++ h

/-- `LOWER_8(v) = b`, bits 31:8 kept. -/
def withLower8 (v : Word) (b : Byte) : Word := (v.extractLsb' 8 24) ++ b

/-- An address is a multiple of 4 when bits 1:0 are 0. -/
def aligned4 (a : Word) : Bool := a.extractLsb' 0 2 == 0#2

/-- An address with bits 1:0 cleared (10_state.md R35, 60_exceptions.md R253). -/
def clear2 (a : Word) : Word := a &&& 0xFFFFFFFC#32

end Sys2Proof.Machine
end

