-- ==== Sys2Proof/Config.lean ====
section
/-! DEFINITION. What the spec leaves OPEN with no default: the parameter `SIGNED_COND` (00_scope.md R6,
30_encoding.md R84), and what a read of a device delivers (20_memory.md R58). The parameters that have a spec default
stand in Machine/Params.lean; the open platform parameters `MemMap`, `AccessFails` and `IrqSource` are plain data in
State. -/

namespace Sys2Proof

/-- The two readings of "negative / signed less than" (R84). -/
inductive SignedCond where
  /-- `LT = (N = 1)` -/
  | nOnly
  /-- `LT = (N != V)` -/
  | nXorV
  deriving DecidableEq, Repr, Inhabited

/-- `SIGNED_COND`, OPEN (R6, R84): no body, so that no proof can rest on either reading. Log 4. -/
opaque Config.signedCond : SignedCond

/-- What a device delivers to a read, a FREE VALUE (20_memory.md R51, R58): no body, so that no proof can rest on what
a device answers. It may depend on the time of the read, on every byte the CPU has written, on whether the read is a
fetch, and on the address and the number of bytes. Log 8. -/
opaque Config.deviceValue (time : Nat) (written : List (Nat × BitVec 8)) (isFetch : Bool) (address : BitVec 32)
    (bytes : Nat) : BitVec 32

end Sys2Proof
end

