-- ==== Sys2Proof/Machine/Params.lean ====
section
/-! DEFINITION. The named parameters of 00_scope.md R6 that have a spec default, at that default. The OPEN ones are
`Config.signedCond` and the fields `memMap`, `failing` and `irqPending` of State. -/

namespace Sys2Proof.Machine

/-- The two byte orders (20_memory.md R52). -/
inductive ByteOrder where
  | little
  | big
  deriving DecidableEq, Repr

/-- What reset loads into `pc` (70_reset_and_hazards.md R291). -/
inductive ResetPcMode where
  /-- the word at address 0 -/
  | vector
  /-- the value 0 -/
  | zero
  deriving DecidableEq, Repr

/-- `BYTE_ORDER`, default little (R52, D1). DESIGN CHOICE, unsafe: log 2. -/
def byteOrder : ByteOrder := .little

/-- `IMM_ALU_SIGNED`, default false (30_encoding.md R80, D3). DESIGN CHOICE, unsafe: log 3. -/
def immAluSigned : Bool := false

/-- `IMM_MEM_SIGNED`, default false (R80, D3). DESIGN CHOICE, unsafe: log 3. -/
def immMemSigned : Bool := false

/-- `IMM_CALL_SIGNED`, default true (R80, D4). DESIGN CHOICE, unsafe: log 3. -/
def immCallSigned : Bool := true

/-- `COMPACT_IMM_SIGNED`, default false (R93, D5). DESIGN CHOICE, unsafe: log 3. -/
def compactImmSigned : Bool := false

/-- `NMI_INDEX`, default 0 (60_exceptions.md R268, 90_conflicts.md C3). DESIGN CHOICE, unsafe: log 6. -/
def nmiIndex : BitVec 8 := 0#8

/-- `RESET_PC_MODE`, default VECTOR (R291, 90_conflicts.md C5). DESIGN CHOICE, unsafe: log 7. -/
def resetPcMode : ResetPcMode := .vector

/-! ## `MulFlags`, `DivSem`, `ShiftSem` -/

/-- The values of Z, C and N; V is in none of these brackets (40_alu.md R103, R104, R106). -/
structure ZCN where
  z : Bool
  c : Bool
  n : Bool
  deriving DecidableEq, Repr

/-- `MulFlags`: the flags of a 64-bit product, default the formulas of R103 (D9): C is set when the high word carries
information. DESIGN CHOICE, unsafe: log 5. -/
def mulFlags (signed : Bool) (p : BitVec 64) : ZCN where
  z := p == 0#64
  c := if signed then p != (p.extractLsb' 0 32).signExtend 64 else p.extractLsb' 32 32 != 0#32
  n := p.msb

/-- What `DivSem` gives for a nonzero divisor (R104). -/
structure DivOut where
  quotient : Word
  remainder : Word
  flags : ZCN
  deriving DecidableEq, Repr

/-- `DivSem`: quotient, remainder and flags for a nonzero divisor, default the formulas of R104 (D10): the signed
quotient rounds toward zero, the remainder has the sign of the dividend, C = 0. DESIGN CHOICE, unsafe: log 5. -/
def divSem (signed : Bool) (a b : Word) : DivOut :=
  let q := if signed then BitVec.ofInt 32 (a.toInt.tdiv b.toInt) else BitVec.ofNat 32 (a.toNat / b.toNat)
  let r := if signed then BitVec.ofInt 32 (a.toInt.tmod b.toInt) else BitVec.ofNat 32 (a.toNat % b.toNat)
  ⟨q, r, { z := q == 0#32, c := false, n := q.msb }⟩

/-- The shifts and rotates of the ALU block (R106). -/
inductive ShiftOp where
  | shl
  | shr
  | sar
  | rotl
  | rotr
  deriving DecidableEq, Repr

/-- What `ShiftSem` gives: how far to shift, and C (R106). -/
structure ShiftOut where
  count : Nat
  carry : Bool
  deriving DecidableEq, Repr

/-- `ShiftSem`: the count and the carry of `op` on `a` by `b`, default the table of R106 (D11): the count is `b` mod
32; C is the last bit shifted out or wrapped round, 0 for a count of 0. DESIGN CHOICE, unsafe: log 5. -/
def shiftSem (op : ShiftOp) (a b : Word) : ShiftOut :=
  let s := b.toNat % 32
  let last := match op with
    | .shl => 32 - s
    | .rotl => 32 - s
    | .shr => s - 1
    | .sar => s - 1
    | .rotr => s - 1
  ⟨s, s != 0 && a.getLsbD last⟩

end Sys2Proof.Machine
end

