-- ==== Sys2Proof/Machine/Flags.lean ====
section
/-! DEFINITION. The arithmetic flags (10_state.md R26, R28): which flags an operation updates and the value each
gets (40_alu.md R101 to R106), and the condition test on a flag word (30_encoding.md R84). -/

namespace Sys2Proof.Machine

/-- The flags an instruction names, each with its new value; `none` leaves the flag as it is (R26). -/
structure FlagUpdate where
  z : Option Bool := none
  c : Option Bool := none
  v : Option Bool := none
  n : Option Bool := none
  deriving DecidableEq, Repr

/-- Set one flag at its bit position if it is named. -/
def setFlag (w : Half) (i : Nat) (b : Option Bool) : Half :=
  match b with
  | some b => setBit w i b
  | none => w

/-- The named flags written into a flag word; Z is bit 0, C bit 1, V bit 6, N bit 7 (R24, R26). -/
def applyFlags (u : FlagUpdate) (w : Half) : Half :=
  setFlag (setFlag (setFlag (setFlag w 0 u.z) 1 u.c) 6 u.v) 7 u.n

/-- Z and N of a 32-bit result, C and V kept: `[ZN]` (R105). -/
def flagsLogic (r : Word) : FlagUpdate := { z := some (r == 0#32), n := some r.msb }

/-- `add`: C is the carry out of bit 31, V the signed overflow (R101). -/
def flagsAdd (a b : Word) : FlagUpdate :=
  let r := a + b
  { z := some (r == 0#32)
    c := some (decide (2 ^ 32 ≤ a.toNat + b.toNat))
    v := some (a.msb == b.msb && r.msb != a.msb)
    n := some r.msb }

/-- `sub` and `cmp`: C is set when there is no borrow (R102). -/
def flagsSub (a b : Word) : FlagUpdate :=
  let r := a - b
  { z := some (r == 0#32)
    c := some (decide (b.toNat ≤ a.toNat))
    v := some (a.msb != b.msb && r.msb != a.msb)
    n := some r.msb }

/-- Z, C and N replaced, V kept: `[ZCN]` of the multiplications and divisions (R103, R104). -/
def flagsZCN (f : ZCN) : FlagUpdate := { z := some f.z, c := some f.c, n := some f.n }

/-- Shifts and rotates: Z and N of the result, C as `ShiftSem` gives it; V kept (R106). -/
def flagsShift (r : Word) (carry : Bool) : FlagUpdate := { z := some (r == 0#32), c := some carry, n := some r.msb }

/-- `shr` writes N with 0: `[ZC] 0>[N]` (R106, R118). -/
def flagsShr (r : Word) (carry : Bool) : FlagUpdate := { z := some (r == 0#32), c := some carry, n := some false }

/-- `LT`, "negative / signed less than" (R84): N, or N xor V, as `SIGNED_COND` says; the two differ exactly when
V is set. Log 4. -/
def signedLess (n v : Bool) : Bool := n ^^ (v && Config.signedCond == .nXorV)

/-- The condition test on the flag word of the selected condition register (R84). -/
def condTest (c : Cond) (w : Half) : Bool :=
  let z := w.getLsbD 0
  let cy := w.getLsbD 1
  let v := w.getLsbD 6
  let n := w.getLsbD 7
  match c with
  | .al => true
  | .vs => v
  | .cs => cy
  | .hi => cy && !z
  | .eq => z
  | .mi => signedLess n v
  | .gt => !signedLess n v && !z
  | .nv => false
  | .vc => !v
  | .cc => !cy
  | .ls => !(cy && !z)
  | .ne => !z
  | .pl => !signedLess n v
  | .le => !(!signedLess n v && !z)
  | .f => true

end Sys2Proof.Machine
end

