-- ==== Sys2Proof/Machine/Operands.lean ====
section
/-! DEFINITION. Operand forms and results: how each immediate is extended (30_encoding.md R80, R93), what each
arithmetic, logic, shift and move operation computes (40_alu.md R100 to R135, 43_two_operand.md), and the merge of a
narrow load (42_load.md R160). -/

namespace Sys2Proof.Machine

/-! ## Immediates -/

/-- The 8-bit immediate of the ALU block (R80). -/
def immAlu8 (n : BitVec 8) : Word := if immAluSigned then n.signExtend 32 else n.zeroExtend 32

/-- The 12-bit immediate of `add x,$n` and `sub x,$n` (R80). -/
def immAlu12 (n : BitVec 12) : Word := if immAluSigned then n.signExtend 32 else n.zeroExtend 32

/-- The byte offset of a store or load, not scaled (R80). -/
def immMem (n : BitVec 8) : Word := if immMemSigned then n.signExtend 32 else n.zeroExtend 32

/-- The target or displacement of `ba` and `br`: `sext_16(n) << 2` (R80). -/
def immBranch (n : Half) : Word := n.signExtend 32 <<< 2

/-- The target or displacement of `call`, `callr`, `fcall`, `fcallr` (R80). -/
def immCall (n : Half) : Word :=
  (if immCallSigned then n.signExtend 32 else n.zeroExtend 32) <<< 2

/-- A 4-bit compact immediate in an 8-bit field (R93). -/
def compactN8 (n : BitVec 4) : BitVec 8 := if compactImmSigned then n.signExtend 8 else n.zeroExtend 8

/-- A 4-bit compact immediate in a 12-bit field (R93). -/
def compactN12 (n : BitVec 4) : BitVec 12 := if compactImmSigned then n.signExtend 12 else n.zeroExtend 12

/-- The 8-bit compact immediate `q:w` in a 16-bit field (R93). -/
def compactN16 (n : BitVec 8) : Half := if compactImmSigned then n.signExtend 16 else n.zeroExtend 16

/-! ## Results -/

/-- One 32-bit result and the flags it updates. -/
structure AluOut where
  value : Word
  flags : FlagUpdate
  deriving DecidableEq, Repr

/-- The two results of a multiply or a divide: the one for `x`, the one for r10, and the flags. -/
structure WideOut where
  first : Word
  second : Word
  flags : FlagUpdate
  deriving DecidableEq, Repr

/-- `add` (R108, R122, R192). -/
def addResult (a b : Word) : AluOut := ⟨a + b, flagsAdd a b⟩

/-- `sub` (R109, R123, R193). -/
def subResult (a b : Word) : AluOut := ⟨a - b, flagsSub a b⟩

/-- `and` (R114, R128). -/
def andResult (a b : Word) : AluOut := ⟨a &&& b, flagsLogic (a &&& b)⟩

/-- `or` (R115, R129). -/
def orResult (a b : Word) : AluOut := ⟨a ||| b, flagsLogic (a ||| b)⟩

/-- `xor` (R116, R130). -/
def xorResult (a b : Word) : AluOut := ⟨a ^^^ b, flagsLogic (a ^^^ b)⟩

/-- `shl`; the carry is the last bit shifted out at the top (R106, R117). -/
def shlResult (a b : Word) : AluOut :=
  let o := shiftSem .shl a b
  let r := a <<< o.count
  ⟨r, flagsShift r o.carry⟩

/-- `shr`; the carry is the last bit shifted out at the bottom, N is written with 0 (R106, R118). -/
def shrResult (a b : Word) : AluOut :=
  let o := shiftSem .shr a b
  let r := a >>> o.count
  ⟨r, flagsShr r o.carry⟩

/-- `sar`; copies of bit 31 enter at the top (R106, R119). -/
def sarResult (a b : Word) : AluOut :=
  let o := shiftSem .sar a b
  let r := a.sshiftRight o.count
  ⟨r, flagsShift r o.carry⟩

/-- `rotl`; the carry is the new bit 0; a count of 0 leaves the value (R106, R120). -/
def rotlResult (a b : Word) : AluOut :=
  let o := shiftSem .rotl a b
  let r := if o.count = 0 then a else (a <<< o.count) ||| (a >>> (32 - o.count))
  ⟨r, flagsShift r o.carry⟩

/-- `rotr`; the carry is the new bit 31; a count of 0 leaves the value (R106, R121). -/
def rotrResult (a b : Word) : AluOut :=
  let o := shiftSem .rotr a b
  let r := if o.count = 0 then a else (a >>> o.count) ||| (a <<< (32 - o.count))
  ⟨r, flagsShift r o.carry⟩

/-- `umul`: the low and the high word of the 64-bit product (R103, R110). -/
def umulResult (a b : Word) : WideOut :=
  let p : BitVec 64 := a.zeroExtend 64 * b.zeroExtend 64
  ⟨p.extractLsb' 0 32, p.extractLsb' 32 32, flagsZCN (mulFlags false p)⟩

/-- `smul`: the same of the signed product (R103, R111). -/
def smulResult (a b : Word) : WideOut :=
  let p : BitVec 64 := a.signExtend 64 * b.signExtend 64
  ⟨p.extractLsb' 0 32, p.extractLsb' 32 32, flagsZCN (mulFlags true p)⟩

/-- `udiv` by a nonzero divisor: quotient and remainder (R104, R112). -/
def udivResult (a b : Word) : WideOut :=
  let o := divSem false a b
  ⟨o.quotient, o.remainder, flagsZCN o.flags⟩

/-- `sdiv` by a nonzero divisor (R104, R113). -/
def sdivResult (a b : Word) : WideOut :=
  let o := divSem true a b
  ⟨o.quotient, o.remainder, flagsZCN o.flags⟩

/-- `not`: the one's complement of all 32 bits (R182). -/
def notResult (b : Word) : AluOut := ⟨~~~b, flagsLogic (~~~b)⟩

/-- `sxb` (R184). -/
def sxbResult (b : Word) : AluOut :=
  let r := (lower8 b).signExtend 32
  ⟨r, flagsLogic r⟩

/-- `sxw` (R185). -/
def sxwResult (b : Word) : AluOut :=
  let r := (lower16 b).signExtend 32
  ⟨r, flagsLogic r⟩

/-- `zxb` (R186). -/
def zxbResult (b : Word) : AluOut :=
  let r := (lower8 b).zeroExtend 32
  ⟨r, flagsLogic r⟩

/-- `zxw` (R187). -/
def zxwResult (b : Word) : AluOut :=
  let r := (lower16 b).zeroExtend 32
  ⟨r, flagsLogic r⟩

/-! ## Access widths -/

/-- The three access widths (20_memory.md R54). -/
inductive Width where
  | byte
  | half
  | word
  deriving DecidableEq, Repr

/-- The size of an access in bytes, also the step of an updating form (41_store.md R140). -/
def widthBytes : Width → Nat
  | .byte => 1
  | .half => 2
  | .word => 4

/-- The step of an updating form as a 32-bit value (R140, R160). -/
def widthStep (w : Width) : Word := BitVec.ofNat 32 (widthBytes w)

/-- `Merge_k(old, v)`: what a load writes; no load extends (42_load.md R160). -/
def mergeLoad (w : Width) (old v : Word) : Word :=
  match w with
  | .byte => withLower8 old (lower8 v)
  | .half => withLower16 old (lower16 v)
  | .word => v

/-- How an offset form updates its base register: the suffixes none, `i`, `p`, `d` (R140, R160). -/
inductive Update where
  | none
  | postInc
  | preDec
  | postDec
  deriving DecidableEq, Repr

/-- The system registers by their numbers in an `smov` operand field (10_state.md R34 to R36). -/
inductive SysReg where
  | ssp
  | sii
  | spc
  deriving DecidableEq, Repr

/-- 13, 14, 15 name `ssp`, `sii`, `spc`; 0 to 12 are reserved (43_two_operand.md R194). -/
def sysRegOf (i : Reg) : Option SysReg :=
  match i with
  | 13#4 => some .ssp
  | 14#4 => some .sii
  | 15#4 => some .spc
  | _ => none

end Sys2Proof.Machine
end

