-- ==== Sys2Proof/Machine/State.lean ====
section
/-! DEFINITION. The state of the Mira2204 (10_state.md R20 to R39) as plain data, its reset value (R38), and the
reasons the host's interface asks for. -/

namespace Sys2Proof.Machine

/-- Why a step would stop with a fault: nothing does. Every exceptional condition of the spec is a trap that the
machine takes (60_exceptions.md R255, R257, R261), so there is no constructor. -/
inductive Fault where
  deriving DecidableEq, Repr

/-- Why a step would refuse an instruction. -/
inductive Refusal where
  /-- Raised only by an arm of `exec` whose instruction has no meaning yet (safe); no arm uses it. -/
  | notModelled (mnemonic : String)
  deriving DecidableEq, Repr

/-- The traps 1 to 9 of the index table (60_exceptions.md R258). -/
inductive Trap where
  /-- 1, `brk` in protected mode -/
  | breakTrap
  /-- 2, reserved opcodes and encodings -/
  | invalidOpcode
  /-- 3, a system mode instruction in protected mode -/
  | protection
  /-- 4, division by zero -/
  | math
  /-- 5, `int` while I is set -/
  | softwareInt
  /-- 6, protected mode attempted to change bits 8-31 of `sr` while S is set -/
  | srWrite
  /-- 7, an instruction sets bit 0 or 1 of `pc` -/
  | pcAlign
  /-- 8, a misaligned 32- or 16-bit access -/
  | align
  /-- 9, external hardware says that an access fails -/
  | access
  deriving DecidableEq, Repr

/-- What an access is for (60_exceptions.md R263). -/
inductive AccessKind where
  | fetch
  | read
  | write
  deriving DecidableEq, Repr

/-- One clause of the platform's predicate `AccessFails(addr, width, kind)` (R263): accesses of this kind and of
`bytes` bytes fail at the addresses `lo` to `hi`. Any predicate is a list of such clauses. -/
structure FailRule where
  kind : AccessKind
  bytes : Nat
  lo : Nat
  hi : Nat
  deriving DecidableEq, Repr

/-- One clause of the platform's parameter `MemMap`, "which addresses hold memory or devices" (00_scope.md R6,
20_memory.md R51): the addresses `lo` to `hi` hold a device. Every other address holds memory. -/
structure DeviceRange where
  lo : Nat
  hi : Nat
  deriving DecidableEq, Repr

/-- The reset input (70_reset_and_hazards.md R290), active low. -/
inductive ResetLine where
  /-- not asserted, and the reset sequence has been run -/
  | high
  /-- asserted: the CPU is held -/
  | low
  /-- just released: the reset sequence is the next thing the CPU does -/
  | risen
  deriving DecidableEq, Repr

/-- Memory: address and byte, addresses strictly rising, no entry equal to what an unlisted address reads as. -/
abbrev Memory := List Host.Cell

/-- The machine's state. -/
structure State where
  /-- r0 to r9, then r10 (cc1 and cc0) and r11 (cc3 and cc2) (R20, R24) -/
  r : Vector Word 12
  /-- register 12, the data stack pointer (R20) -/
  dsp : Word
  /-- register 13, the call stack pointer of the running mode (R20) -/
  isp : Word
  /-- register 14, the status register (R25) -/
  sr : Half
  /-- register 15, the instruction pointer of the running mode (R22) -/
  pc : Word
  /-- the `isp` of the mode that is not running (R34) -/
  ssp : Word
  /-- the base of the vector table (R35) -/
  sii : Word
  /-- the `pc` of the mode that is not running (R36) -/
  spc : Word
  /-- memory (20_memory.md R50); at the address of a device, the byte that the CPU has last sent to it -/
  mem : Memory
  /-- the prefetched second half of a compact pair whose first half has just run (R37 b) -/
  latch : Option Half
  /-- MODEL: the platform's parameter `MemMap`, as the list of the addresses that hold devices (R6, R51) -/
  memMap : List DeviceRange
  /-- MODEL: a counter that moves on between any two reads of one kind at one address, so that a device may answer
  each with another value (R58) -/
  busTime : Nat
  /-- MODEL: the platform's answer to "does this access fail" (R37 c, R263) -/
  failing : List FailRule
  /-- MODEL: the hardware interrupt requests the platform holds, the next one first (R37 a, R266) -/
  irqPending : List (BitVec 8)
  /-- MODEL: how many NMI requests have not been taken yet (R268) -/
  nmiPending : Nat
  /-- MODEL: the reset input (R290) -/
  resetLine : ResetLine
  deriving DecidableEq, Repr

/-- The machine right after reset (R38, R291): every register 0, `sr` = 0x0900 (I and T set), system mode.
The reset vector is the word at address 0 of a memory that lists nothing, so `pc` is 0 (log 1, log 7). -/
def State.reset : State where
  r := Vector.replicate 12 0#32
  dsp := 0#32
  isp := 0#32
  sr := 0x0900#16
  pc := 0#32
  ssp := 0#32
  sii := 0#32
  spc := 0#32
  mem := []
  latch := none
  memMap := []
  busTime := 0
  failing := []
  irqPending := []
  nmiPending := 0
  resetLine := .high

end Sys2Proof.Machine
end

