-- ==== Sys2Proof/Machine/Memory.lean ====
section
/-! DEFINITION. Memory (20_memory.md R50 to R57): one byte space of 2^32 addresses, held as the list of the bytes that
differ from what an unlisted byte reads as; which of them hold a device (R51); the two access primitives (R55, R56). -/

namespace Sys2Proof.Machine

/-- What a byte that nothing has written reads as. The spec gives memory no content at reset (10_state.md R38).
DESIGN CHOICE, unsafe: log 1. -/
def unlistedByte : Byte := 0#8

/-- The byte at an address. -/
def readByte (m : Memory) (a : Nat) : Byte :=
  match m with
  | [] => unlistedByte
  | (k, b) :: rest => if k = a then b else readByte rest a

/-- Write one byte, keeping the canonical form: rising addresses, no entry with the unlisted value. -/
def writeByte (m : Memory) (a : Nat) (v : Byte) : Memory :=
  match m with
  | [] => if v = unlistedByte then [] else [(a, v)]
  | (k, b) :: rest =>
    if a < k then (if v = unlistedByte then (k, b) :: rest else (a, v) :: (k, b) :: rest)
    else if a = k then (if v = unlistedByte then rest else (a, v) :: rest)
    else (k, b) :: writeByte rest a v

/-- The canonical form from a lower bound on: addresses rise, lie below 2^32, and no byte is the unlisted one. -/
def memoryWfFrom (lo : Nat) (m : Memory) : Bool :=
  match m with
  | [] => true
  | (k, b) :: rest => decide (lo ≤ k) && decide (k < 2 ^ 32) && (b != unlistedByte) && memoryWfFrom (k + 1) rest

/-- The canonical form of memory. -/
def Memory.wf (m : Memory) : Bool := memoryWfFrom 0 m

/-- The address of byte `i` of an access at `a`; addresses wrap modulo 2^32 (R57). -/
def byteAddress (a : Word) (i : Nat) : Nat := (a + BitVec.ofNat 32 i).toNat

/-- Byte `i` of a value, bits `8i+7` to `8i` (R56). -/
def valueByte (v : Word) (i : Nat) : Byte := v.extractLsb' (8 * i) 8

/-- Which byte of an `n`-byte value lies `i` bytes above its address (R52). -/
def byteLane (n i : Nat) : Nat :=
  match byteOrder with
  | .little => i
  | .big => n - 1 - i

/-- The value of the bytes at `a`, zero-extended (R55). -/
def loadBytes (m : Memory) (a : Word) (w : Width) : Word :=
  match w with
  | .byte => (readByte m a.toNat).zeroExtend 32
  | .half =>
    let b := fun j => readByte m (byteAddress a (byteLane 2 j))
    (b 1 ++ b 0 : Half).zeroExtend 32
  | .word =>
    let b := fun j => readByte m (byteAddress a (byteLane 4 j))
    b 3 ++ b 2 ++ b 1 ++ b 0

/-- The low bytes of `v` written at `a`; nothing outside `a .. a+n-1` is touched (R56). -/
def storeBytes (m : Memory) (a : Word) (w : Width) (v : Word) : Memory :=
  match w with
  | .byte => writeByte m a.toNat (valueByte v 0)
  | .half =>
    let put := fun m i => writeByte m (byteAddress a i) (valueByte v (byteLane 2 i))
    put (put m 0) 1
  | .word =>
    let put := fun m i => writeByte m (byteAddress a i) (valueByte v (byteLane 4 i))
    put (put (put (put m 0) 1) 2) 3

/-- Does an access of this width at `a` break the alignment rule (R53)? -/
def misaligned (a : Word) (w : Width) : Bool :=
  match w with
  | .byte => false
  | .half => a.getLsbD 0
  | .word => !aligned4 a

/-- `AccessFails(addr, width, kind)`, the platform's answer (60_exceptions.md R263). -/
def accessFails (s : State) (kind : AccessKind) (a : Word) (w : Width) : Bool :=
  s.failing.any fun f =>
    f.kind == kind && f.bytes == widthBytes w && decide (f.lo ≤ a.toNat) && decide (a.toNat ≤ f.hi)

/-- `MemMap` (00_scope.md R6, R51): does the access at `a` touch a byte that a device holds? -/
def State.isDevice (s : State) (a : Word) (w : Width) : Bool :=
  s.memMap.any fun d => decide (d.lo < a.toNat + widthBytes w) && decide (a.toNat ≤ d.hi)

/-- The low bytes of a value, zero-extended (R55, R56). -/
def lowBytes (w : Width) (v : Word) : Word :=
  match w with
  | .byte => (lower8 v).zeroExtend 32
  | .half => (lower16 v).zeroExtend 32
  | .word => v

/-- What a read at `a` delivers: the bytes of memory, or whatever the device says, a free value of the width of the
access (R51, R55, R58). Log 8. -/
def State.busValue (s : State) (kind : AccessKind) (a : Word) (w : Width) : Word :=
  if s.isDevice a w then lowBytes w (Config.deviceValue s.busTime s.mem (kind == .fetch) a (widthBytes w))
  else loadBytes s.mem a w

/-- `MemRead(addr, n)`: the alignment check, the access check, the value (R55). -/
def memRead (s : State) (kind : AccessKind) (a : Word) (w : Width) : Except Trap Word :=
  if misaligned a w then .error .align
  else if accessFails s kind a w then .error .access
  else .ok (s.busValue kind a w)

/-- `MemWrite(addr, n, v)`: the alignment check, the access check, the bytes, to memory or to the device there
(R56). -/
def memWrite (s : State) (a : Word) (w : Width) (v : Word) : Except Trap State :=
  if misaligned a w then .error .align
  else if accessFails s .write a w then .error .access
  else .ok { s with mem := storeBytes s.mem a w v }

end Sys2Proof.Machine
end

