-- ==== Sys2Proof/Machine/Ops.lean ====
section
/-! DEFINITION. The named operations over registers, flags, the stack and the modes; taking a trap or an interrupt and
returning from one; reset; what the environment can do. Statements of an instruction run in the written order on an
`Except Trap State`: a trap abandons them all (00_scope.md R8, 60_exceptions.md R256). -/

namespace Sys2Proof.Machine

/-- What the statements of an instruction give: the state they leave, or the trap that one of them raised. -/
abbrev Effect := Except Trap State

/-! ## The status register (10_state.md R25) -/

/-- The implemented bits of `sr` (R25). -/
def srMask : Half := 0x1FC3#16

/-- `sr` as a 32-bit value: unimplemented bits read 0 (R25, R30). -/
def State.srWord (s : State) : Word := (s.sr &&& srMask).zeroExtend 32

/-- F, Full Halt (R25). -/
def State.flagF (s : State) : Bool := s.sr.getLsbD 12
/-- T, Trap (R25). -/
def State.flagT (s : State) : Bool := s.sr.getLsbD 11
/-- S, SR Trap (R25). -/
def State.flagS (s : State) : Bool := s.sr.getLsbD 10
/-- P, Protect Enable: set in protected mode (R25, 60_exceptions.md R251). -/
def State.flagP (s : State) : Bool := s.sr.getLsbD 9
/-- I, Interrupt: set, it inhibits hardware interrupts (R25). -/
def State.flagI (s : State) : Bool := s.sr.getLsbD 8

/-- Set one bit of `sr`. -/
def State.withSrBit (s : State) (i : Nat) (b : Bool) : State := { s with sr := setBit s.sr i b }

/-- `WriteSR(v)`, an instruction's explicit write of register 14 (R32). The context switch that setting P causes is
performed at the end of the instruction, by `finish`. -/
def State.writeSr (s : State) (v : Word) : Effect :=
  let new := lower16 v &&& srMask
  if s.flagP then
    if new.extractLsb' 8 5 == s.sr.extractLsb' 8 5 then .ok { s with sr := new }
    else if s.flagS then .error .srWrite
    else .ok { s with sr := 0#3 ++ s.sr.extractLsb' 8 5 ++ new.extractLsb' 0 8 }
  else .ok { s with sr := new }

/-! ## The main registers -/

/-- `pc <- target`: trap 7 when bit 0 or 1 of the target is set (R23). -/
def State.writePc (s : State) (v : Word) : Effect :=
  if aligned4 v then .ok { s with pc := v } else .error .pcAlign

/-- `x[i]`, the read of a main register (R30). -/
def State.readReg (s : State) (i : Reg) : Word :=
  if h : i.toNat < 12 then s.r[i.toNat]
  else if i = 12#4 then s.dsp
  else if i = 13#4 then s.isp
  else if i = 14#4 then s.srWord
  else s.pc

/-- `x[i] <- v`, the write of a main register (R31). -/
def State.writeReg (s : State) (i : Reg) (v : Word) : Effect :=
  if h : i.toNat < 12 then .ok { s with r := s.r.set i.toNat v }
  else if i = 12#4 then .ok { s with dsp := v }
  else if i = 13#4 then .ok { s with isp := v }
  else if i = 14#4 then s.writeSr v
  else s.writePc v

/-- The condition register `cc[k]` (R21, R24). -/
def State.cc (s : State) (k : BitVec 2) : Half :=
  match k with
  | 0#2 => lower16 s.r[10]
  | 1#2 => higher16 s.r[10]
  | 2#2 => lower16 s.r[11]
  | _ => higher16 s.r[11]

/-- `cc[k] <- v`, the other half of its register kept (R21). -/
def State.setCc (s : State) (k : BitVec 2) (v : Half) : State :=
  match k with
  | 0#2 => { s with r := s.r.set 10 (withLower16 s.r[10] v) }
  | 1#2 => { s with r := s.r.set 10 (withHigher16 s.r[10] v) }
  | 2#2 => { s with r := s.r.set 11 (withLower16 s.r[11] v) }
  | _ => { s with r := s.r.set 11 (withHigher16 s.r[11] v) }

/-- `SetFlags`: into `cc[rr]` when `cccc = 1111`, else into `sr` (R28). -/
def State.setFlags (s : State) (g : Guard) (u : FlagUpdate) : State :=
  if g.cond = .f then s.setCc g.rr (applyFlags u (s.cc g.rr))
  else { s with sr := applyFlags u s.sr }

/-- Is the condition of a standard instruction true (30_encoding.md R84)? -/
def State.condHolds (s : State) (g : Guard) : Bool := condTest g.cond (s.cc g.rr)

/-! ## The call stack and the modes (60_exceptions.md R252 to R254) -/

/-- `Push(v)` (R254). -/
def State.push (s : State) (v : Word) : Effect :=
  memWrite { s with isp := s.isp - 4#32 } (s.isp - 4#32) .word v

/-- `isp <-> ssp`, `pc <-> spc`: the exchange of a context switch (R252). -/
def State.exchange (s : State) : State :=
  { s with isp := s.ssp, ssp := s.isp, pc := s.spc, spc := s.pc }

/-- `ContextSwitch()` to system mode: the exchange, and P is cleared (R252). -/
def State.toSystem (s : State) : State := s.exchange.withSrBit 9 false

/-- `ContextSwitch()` to protected mode: the exchange, and P is set (R252). -/
def State.toProtected (s : State) : State := s.exchange.withSrBit 9 true

/-- `Vector(k)`: entry `k` of the table at `sii`, low two bits dropped (R253). -/
def State.vector (s : State) (k : BitVec 8) : Except Trap Word :=
  (memRead s .read (clear2 s.sii + 4#32 * k.zeroExtend 32) .word).map clear2

/-- The index of a trap (R258). -/
def trapIndex : Trap → BitVec 8
  | .breakTrap => 1#8
  | .invalidOpcode => 2#8
  | .protection => 3#8
  | .math => 4#8
  | .softwareInt => 5#8
  | .srWrite => 6#8
  | .pcAlign => 7#8
  | .align => 8#8
  | .access => 9#8

/-! ## Taking a trap or an interrupt -/

/-- F is set, what was under way is dropped, nothing else changes: the double trap halt (R257) and the entry that
fails (R261). The latched half of a pair is aborted with it (log 14). -/
def State.halt (s : State) : State := { s.withSrBit 12 true with latch := none }

/-- The switch to system mode, if needed, that both entries begin with (R255, R260). -/
def State.enterSystem (s : State) : State := if s.flagP then s.toSystem else s

/-- Push `pc`, push `sr`, set one bit of `sr` (T for a trap, I for an interrupt), load `pc` from the table
(R255, R260). The vector read is at a later time than the reads before it (R58). -/
def State.enterVia (s : State) (bit : Nat) (k : BitVec 8) : Effect := do
  let s1 ← s.push s.pc
  let s2 ← s1.push s1.srWord
  let s3 := { s2.withSrBit bit true with busTime := s2.busTime + 1 }
  let v ← s3.vector k
  return { s3 with pc := v }

/-- Taking a trap, `Trap(k)` (R255): a trap with T set and P clear halts (R257); an entry that fails is undone and
halts (R261). `s` is the state with the trapping instruction's writes discarded (R256). The latched half of a pair is
not executed (46_compact.md R231). -/
def State.trapEntry (s : State) (t : Trap) : State :=
  if s.flagT && !s.flagP then s.halt
  else match s.enterSystem.enterVia 11 (trapIndex t) with
    | .ok s' => { s' with latch := none }
    | .error _ => s.halt

/-- Taking an interrupt, `Interrupt(k)` (R260): like a trap, but F is cleared first and I is set; an entry that fails
is undone and halts (R261). -/
def State.interruptEntry (s : State) (k : BitVec 8) : State :=
  match (s.enterSystem.withSrBit 12 false).enterVia 8 k with
  | .ok s' => s'
  | .error _ => s.halt

/-- The end of an instruction: if P has risen, the context switch to protected mode, with trap 7 when `spc` is
misaligned (10_state.md R32, R252). `before` is the state the instruction started from. The exchange puts into `spc`
the `pc` that the instruction's writes have left: the address of the next word, or the `pc` that `rfi` has popped (R252
b). That it is the address written when an instruction other than `rfi` (or the first half of its pair) has also
written `pc` is not the spec's: DESIGN CHOICE, unsafe, log 21. -/
def finish (before after : State) : Effect :=
  if !before.flagP && after.flagP then
    if aligned4 after.spc then .ok after.toProtected else .error .pcAlign
  else .ok after

/-- Return from an interrupt or a trap (R223, R273): pop `sr`, then `pc`; `finish` makes the context switch that the
popped P asks for. -/
def State.returnFromInterrupt (s : State) : Effect := do
  let v ← memRead s .read s.isp .word
  let p ← memRead s .read (s.isp + 4#32) .word
  let s1 ← { s with isp := s.isp + 8#32, sr := lower16 v &&& srMask }.writePc p
  return s1

/-! ## Running an instruction's statements -/

/-- Run the statements of an instruction: their state with the end-of-instruction switch, or the trap they raise,
taken from the state they started from (R255, R256). -/
def runEffect (body : State → Effect) (s : State) : Host.Outcome State Fault Refusal :=
  match (body s).bind (finish s) with
  | .ok t => .next t
  | .error k => .next (s.trapEntry k)

/-- A standard instruction: a reserved condition byte traps, a false condition skips, otherwise the statements run
(30_encoding.md R77, R83, R87). -/
def runStd (g : Guard) (body : State → Effect) (s : State) : Host.Outcome State Fault Refusal :=
  if !g.wellFormed then .next (s.trapEntry .invalidOpcode)
  else if s.condHolds g then runEffect body s
  else .next s

/-- A compact instruction: unconditional (46_compact.md R230). -/
def runCompact (body : State → Effect) (s : State) : Host.Outcome State Fault Refusal :=
  runEffect body s

/-- A system mode instruction in protected mode raises trap `t` (60_exceptions.md R275). -/
def systemOnly (t : Trap) (body : State → Effect) (s : State) : Effect :=
  if s.flagP then .error t else body s

/-! ## Reset (70_reset_and_hazards.md R291) -/

/-- Every register at its reset value; memory and the inputs are kept, the reset line is high. -/
def State.clearRegisters (s : State) : State :=
  { State.reset with
    mem := s.mem, memMap := s.memMap, busTime := s.busTime + 1, failing := s.failing, irqPending := s.irqPending,
    nmiPending := s.nmiPending }

/-- The reset sequence: clear the registers, set I and T, load `pc` with the reset vector. A vector read that fails
is a trap with T set in system mode: it halts (R291, R257). -/
def State.performReset (s : State) : State :=
  match resetPcMode with
  | .zero => s.clearRegisters
  | .vector =>
    match s.clearRegisters.vector 0#8 with
    | .ok v => { s.clearRegisters with pc := v }
    | .error t => s.clearRegisters.trapEntry t

/-! ## What the environment can do between two steps -/

/-- The reset input goes low (R290). -/
def State.assertReset (s : State) : State := { s with resetLine := .low }

/-- The reset input goes high; an edge from low starts the reset sequence (R290). -/
def State.releaseReset (s : State) : State :=
  if s.resetLine = .low then { s with resetLine := .risen } else s

/-- A request on the non-maskable interrupt input (60_exceptions.md R268). -/
def State.requestNmi (s : State) : State := { s with nmiPending := s.nmiPending + 1 }

/-- The platform's interrupt source takes up a request with index `k` (R266). Log 10. -/
def State.requestIrq (s : State) (k : BitVec 8) : State := { s with irqPending := s.irqPending ++ [k] }

end Sys2Proof.Machine
end

