-- ==== Sys2Proof/Machine/Effects.lean ====
section
/-! DEFINITION. The statements that several instructions share, each on the state the statement before left
(00_scope.md R8). An instruction's own meaning in Machine/<Family>.lean names one of these with its operation. -/

namespace Sys2Proof.Machine

/-! ## Arithmetic and logic (40_alu.md R100) -/

/-- Write the result, then the flags (10_state.md R28). -/
def writeAlu (g : Guard) (x : Reg) (o : AluOut) (s : State) : Effect := do
  let s1 ← s.writeReg x o.value
  return s1.setFlags g o.flags

/-- Write the first result to `x`, then the second to r10, then the flags (R103, R104, R107 d). -/
def writeWide (g : Guard) (x : Reg) (o : WideOut) (s : State) : Effect := do
  let s1 ← s.writeReg x o.first
  let s2 ← s1.writeReg 10#4 o.second
  return s2.setFlags g o.flags

/-- `x <- y op z` (R100, register block). -/
def aluRegister (op : Word → Word → AluOut) (g : Guard) (x y z : Reg) (s : State) : Effect :=
  writeAlu g x (op (s.readReg y) (s.readReg z)) s

/-- `x <- y op imm` (R100, immediate block; 43_two_operand.md R192). -/
def aluImmediate (op : Word → Word → AluOut) (g : Guard) (x y : Reg) (imm : Word) (s : State) : Effect :=
  writeAlu g x (op (s.readReg y) imm) s

/-- `r10:x <- y * z` (R103). -/
def wideRegister (op : Word → Word → WideOut) (g : Guard) (x y z : Reg) (s : State) : Effect :=
  writeWide g x (op (s.readReg y) (s.readReg z)) s

/-- `r10:x <- y * imm` (R103). -/
def wideImmediate (op : Word → Word → WideOut) (g : Guard) (x y : Reg) (imm : Word) (s : State) : Effect :=
  writeWide g x (op (s.readReg y) imm) s

/-- Division of `a` by `b`: trap 4 for a zero divisor, before anything is written (R104, R107 e). -/
def divide (op : Word → Word → WideOut) (g : Guard) (x : Reg) (a b : Word) (s : State) : Effect :=
  if b = 0#32 then .error .math else writeWide g x (op a b) s

/-- `x <- y / z; r10 <- y % z` (R104). -/
def divideRegister (op : Word → Word → WideOut) (g : Guard) (x y z : Reg) (s : State) : Effect :=
  divide op g x (s.readReg y) (s.readReg z) s

/-- `x <- y / imm; r10 <- y % imm` (R104). -/
def divideImmediate (op : Word → Word → WideOut) (g : Guard) (x y : Reg) (imm : Word) (s : State) : Effect :=
  divide op g x (s.readReg y) imm s

/-- `x <- op y` (43_two_operand.md R182, R184 to R187). -/
def unaryRegister (op : Word → AluOut) (g : Guard) (x y : Reg) (s : State) : Effect :=
  writeAlu g x (op (s.readReg y)) s

/-- `cmp`: the flags of `x - y`, nothing else (R183). -/
def compare (g : Guard) (x y : Reg) (s : State) : Effect :=
  .ok (s.setFlags g (flagsSub (s.readReg x) (s.readReg y)))

/-! ## Moves (43_two_operand.md) -/

/-- `x <- y` (R180). -/
def move (x y : Reg) (s : State) : Effect := s.writeReg x (s.readReg y)

/-- `tmp = x; x = y; y = tmp` (R181). -/
def swap (x y : Reg) (s : State) : Effect := do
  let s1 ← s.writeReg x (s.readReg y)
  s1.writeReg y (s.readReg x)

/-- One half of `x` replaced by a half of `y`, through the ordinary register write (R188 to R191). -/
def moveHalf (put : Word → Half → Word) (get : Word → Half) (x y : Reg) (s : State) : Effect :=
  s.writeReg x (put (s.readReg x) (get (s.readReg y)))

/-- The read of a system register; the low two bits of `sii` read 0 (10_state.md R34 to R36). -/
def State.readSys (s : State) (r : SysReg) : Word :=
  match r with
  | .ssp => s.ssp
  | .sii => clear2 s.sii
  | .spc => s.spc

/-- The write of a system register; `sii` drops its low two bits (R34 to R36). -/
def State.writeSys (s : State) (r : SysReg) (v : Word) : State :=
  match r with
  | .ssp => { s with ssp := v }
  | .sii => { s with sii := clear2 v }
  | .spc => { s with spc := v }

/-- `smov sysx,y` in system mode: trap 2 for a reserved register number (R194). -/
def moveToSystem (x y : Reg) (s : State) : Effect :=
  match sysRegOf x with
  | none => .error .invalidOpcode
  | some r => .ok (s.writeSys r (s.readReg y))

/-- `smov x,sysy` in system mode: trap 2 for a reserved register number (R195). -/
def moveFromSystem (x y : Reg) (s : State) : Effect :=
  match sysRegOf y with
  | none => .error .invalidOpcode
  | some r => s.writeReg x (s.readSys r)

/-! ## Stores (41_store.md R140) -/

/-- `*(x + off) = y`, the low bytes of `y`. -/
def storeAt (w : Width) (x y : Reg) (off : Word) (s : State) : Effect :=
  memWrite s (s.readReg x + off) w (s.readReg y)

/-- A store with an offset and its base update, in the listing's order (R140). -/
def storeOffset (w : Width) (u : Update) (x y : Reg) (off : Word) (s : State) : Effect :=
  match u with
  | .none => storeAt w x y off s
  | .postInc => do
    let s1 ← storeAt w x y off s
    s1.writeReg x (s1.readReg x + widthStep w)
  | .preDec => do
    let s1 ← s.writeReg x (s.readReg x - widthStep w)
    storeAt w x y off s1
  | .postDec => do
    let s1 ← storeAt w x y off s
    s1.writeReg x (s1.readReg x - widthStep w)

/-- `*(x + z) = y` (R154 to R156). -/
def storeIndexed (w : Width) (x y z : Reg) (s : State) : Effect :=
  storeAt w x y (s.readReg z) s

/-- `*(x + z) = y; z += 4`: the index register is stepped (R157). -/
def storeIndexedInc (x y z : Reg) (s : State) : Effect := do
  let s1 ← storeIndexed .word x y z s
  s1.writeReg z (s1.readReg z + 4#32)

/-! ## Loads (42_load.md R160) -/

/-- `x = *(y + off)`, a narrow value merged into the low bits of `x`. -/
def loadAt (w : Width) (x y : Reg) (off : Word) (s : State) : Effect := do
  let v ← memRead s .read (s.readReg y + off) w
  s.writeReg x (mergeLoad w (s.readReg x) v)

/-- A load with an offset and its base update, in the listing's order (R160). -/
def loadOffset (w : Width) (u : Update) (x y : Reg) (off : Word) (s : State) : Effect :=
  match u with
  | .none => loadAt w x y off s
  | .postInc => do
    let s1 ← loadAt w x y off s
    s1.writeReg y (s1.readReg y + widthStep w)
  | .preDec => do
    let s1 ← s.writeReg y (s.readReg y - widthStep w)
    loadAt w x y off s1
  | .postDec => do
    let s1 ← loadAt w x y off s
    s1.writeReg y (s1.readReg y - widthStep w)

/-- `x = *(y + z)` (R174 to R176). -/
def loadIndexed (w : Width) (x y z : Reg) (s : State) : Effect :=
  loadAt w x y (s.readReg z) s

/-- `x = *(y + z); z += 4`: the index register is stepped (R177). -/
def loadIndexedInc (x y z : Reg) (s : State) : Effect := do
  let s1 ← loadIndexed .word x y z s
  s1.writeReg z (s1.readReg z + 4#32)

/-! ## Transfers of control (44_one_operand.md) -/

/-- `jf`: the high half of the target is the low half of the next word, read as data (R202). -/
def jumpFar (n : Half) (s : State) : Effect := do
  let w ← memRead s .read s.pc .word
  s.writePc (lower16 w ++ n)

/-- `call`: push `pc`, push `dsp`, go to a target read after the pushes (R204, R212). -/
def callTo (target : State → Word) (s : State) : Effect := do
  let s1 ← s.push s.pc
  let s2 ← s1.push s1.dsp
  s2.writePc (target s2)

/-- `fcall`: r8 = `dsp`, r9 = `pc`, go to a target read after these writes (R206, R214). -/
def fastCallTo (target : State → Word) (s : State) : Effect := do
  let s1 ← s.writeReg 8#4 s.dsp
  let s2 ← s1.writeReg 9#4 s1.pc
  s2.writePc (target s2)

/-- `int`: trap 5 while I is set, else interrupt entry with the low 8 bits (R208, R209). -/
def softwareInterrupt (v : Word) (s : State) : Effect :=
  if s.flagI then .error .softwareInt else .ok (s.interruptEntry (lower8 v))

/-- `ret`: pop `dsp`, pop `pc` (45_zero_operand.md R220). -/
def returnFromCall (s : State) : Effect := do
  let d ← memRead s .read s.isp .word
  let p ← memRead s .read (s.isp + 4#32) .word
  { s with dsp := d, isp := s.isp + 8#32 }.writePc p

/-- `fret`: `dsp` = r8, `pc` = r9 (R221). -/
def returnFromFastCall (s : State) : Effect :=
  { s with dsp := s.readReg 8#4 }.writePc (s.readReg 9#4)

/-- A reserved opcode: trap 2 (30_encoding.md R86). -/
def reservedOpcode (_ : State) : Effect := .error .invalidOpcode

end Sys2Proof.Machine
end

