-- ==== Sys2Proof/Machine/AluImmediate.lean ====
section
/-! DEFINITION. The immediate ALU block 0x50-0x5F (40_alu.md R122 to R135). -/

namespace Sys2Proof.Machine

/-- 0x50, `add x,y,$n` (R122). -/
def execAddN (g : Guard) (x : Reg) (y : Reg) (n : BitVec 8) (s : State) : Host.Outcome State Fault Refusal :=
  runStd g (aluImmediate addResult g x y (immAlu8 n)) s

/-- 0x51, `sub x,y,$n` (R123). -/
def execSubN (g : Guard) (x : Reg) (y : Reg) (n : BitVec 8) (s : State) : Host.Outcome State Fault Refusal :=
  runStd g (aluImmediate subResult g x y (immAlu8 n)) s

/-- 0x52, `umul x,y,$n` (R124). -/
def execUmulN (g : Guard) (x : Reg) (y : Reg) (n : BitVec 8) (s : State) : Host.Outcome State Fault Refusal :=
  runStd g (wideImmediate umulResult g x y (immAlu8 n)) s

/-- 0x53, `smul x,y,$n` (R125). -/
def execSmulN (g : Guard) (x : Reg) (y : Reg) (n : BitVec 8) (s : State) : Host.Outcome State Fault Refusal :=
  runStd g (wideImmediate smulResult g x y (immAlu8 n)) s

/-- 0x54, `udiv x,y,$n` (R126). -/
def execUdivN (g : Guard) (x : Reg) (y : Reg) (n : BitVec 8) (s : State) : Host.Outcome State Fault Refusal :=
  runStd g (divideImmediate udivResult g x y (immAlu8 n)) s

/-- 0x55, `sdiv x,y,$n` (R127). -/
def execSdivN (g : Guard) (x : Reg) (y : Reg) (n : BitVec 8) (s : State) : Host.Outcome State Fault Refusal :=
  runStd g (divideImmediate sdivResult g x y (immAlu8 n)) s

/-- 0x58, `and x,y,$n` (R128). -/
def execAndN (g : Guard) (x : Reg) (y : Reg) (n : BitVec 8) (s : State) : Host.Outcome State Fault Refusal :=
  runStd g (aluImmediate andResult g x y (immAlu8 n)) s

/-- 0x59, `or x,y,$n` (R129). -/
def execOrN (g : Guard) (x : Reg) (y : Reg) (n : BitVec 8) (s : State) : Host.Outcome State Fault Refusal :=
  runStd g (aluImmediate orResult g x y (immAlu8 n)) s

/-- 0x5A, `xor x,y,$n` (R130). -/
def execXorN (g : Guard) (x : Reg) (y : Reg) (n : BitVec 8) (s : State) : Host.Outcome State Fault Refusal :=
  runStd g (aluImmediate xorResult g x y (immAlu8 n)) s

/-- 0x5B, `shl x,y,$n` (R131). -/
def execShlN (g : Guard) (x : Reg) (y : Reg) (n : BitVec 8) (s : State) : Host.Outcome State Fault Refusal :=
  runStd g (aluImmediate shlResult g x y (immAlu8 n)) s

/-- 0x5C, `shr x,y,$n` (R132). -/
def execShrN (g : Guard) (x : Reg) (y : Reg) (n : BitVec 8) (s : State) : Host.Outcome State Fault Refusal :=
  runStd g (aluImmediate shrResult g x y (immAlu8 n)) s

/-- 0x5D, `sar x,y,$n` (R133). -/
def execSarN (g : Guard) (x : Reg) (y : Reg) (n : BitVec 8) (s : State) : Host.Outcome State Fault Refusal :=
  runStd g (aluImmediate sarResult g x y (immAlu8 n)) s

/-- 0x5E, `rotl x,y,$n` (R134). -/
def execRotlN (g : Guard) (x : Reg) (y : Reg) (n : BitVec 8) (s : State) : Host.Outcome State Fault Refusal :=
  runStd g (aluImmediate rotlResult g x y (immAlu8 n)) s

/-- 0x5F, `rotr x,y,$n` (R135). -/
def execRotrN (g : Guard) (x : Reg) (y : Reg) (n : BitVec 8) (s : State) : Host.Outcome State Fault Refusal :=
  runStd g (aluImmediate rotrResult g x y (immAlu8 n)) s

end Sys2Proof.Machine
end

