-- ==== Sys2Proof/Machine/AluRegister.lean ====
section
/-! DEFINITION. The register ALU block 0x40-0x4F (40_alu.md R108 to R121). -/

namespace Sys2Proof.Machine

/-- 0x40, `add x,y,z` (R108). -/
def execAdd (g : Guard) (x : Reg) (y : Reg) (z : Reg) (s : State) : Host.Outcome State Fault Refusal :=
  runStd g (aluRegister addResult g x y z) s

/-- 0x41, `sub x,y,z` (R109). -/
def execSub (g : Guard) (x : Reg) (y : Reg) (z : Reg) (s : State) : Host.Outcome State Fault Refusal :=
  runStd g (aluRegister subResult g x y z) s

/-- 0x42, `umul x,y,z` (R110). -/
def execUmul (g : Guard) (x : Reg) (y : Reg) (z : Reg) (s : State) : Host.Outcome State Fault Refusal :=
  runStd g (wideRegister umulResult g x y z) s

/-- 0x43, `smul x,y,z` (R111). -/
def execSmul (g : Guard) (x : Reg) (y : Reg) (z : Reg) (s : State) : Host.Outcome State Fault Refusal :=
  runStd g (wideRegister smulResult g x y z) s

/-- 0x44, `udiv x,y,z` (R112). -/
def execUdiv (g : Guard) (x : Reg) (y : Reg) (z : Reg) (s : State) : Host.Outcome State Fault Refusal :=
  runStd g (divideRegister udivResult g x y z) s

/-- 0x45, `sdiv x,y,z` (R113). -/
def execSdiv (g : Guard) (x : Reg) (y : Reg) (z : Reg) (s : State) : Host.Outcome State Fault Refusal :=
  runStd g (divideRegister sdivResult g x y z) s

/-- 0x48, `and x,y,z` (R114). -/
def execAnd (g : Guard) (x : Reg) (y : Reg) (z : Reg) (s : State) : Host.Outcome State Fault Refusal :=
  runStd g (aluRegister andResult g x y z) s

/-- 0x49, `or x,y,z` (R115). -/
def execOr (g : Guard) (x : Reg) (y : Reg) (z : Reg) (s : State) : Host.Outcome State Fault Refusal :=
  runStd g (aluRegister orResult g x y z) s

/-- 0x4A, `xor x,y,z` (R116). -/
def execXor (g : Guard) (x : Reg) (y : Reg) (z : Reg) (s : State) : Host.Outcome State Fault Refusal :=
  runStd g (aluRegister xorResult g x y z) s

/-- 0x4B, `shl x,y,z` (R117). -/
def execShl (g : Guard) (x : Reg) (y : Reg) (z : Reg) (s : State) : Host.Outcome State Fault Refusal :=
  runStd g (aluRegister shlResult g x y z) s

/-- 0x4C, `shr x,y,z` (R118). -/
def execShr (g : Guard) (x : Reg) (y : Reg) (z : Reg) (s : State) : Host.Outcome State Fault Refusal :=
  runStd g (aluRegister shrResult g x y z) s

/-- 0x4D, `sar x,y,z` (R119). -/
def execSar (g : Guard) (x : Reg) (y : Reg) (z : Reg) (s : State) : Host.Outcome State Fault Refusal :=
  runStd g (aluRegister sarResult g x y z) s

/-- 0x4E, `rotl x,y,z` (R120). -/
def execRotl (g : Guard) (x : Reg) (y : Reg) (z : Reg) (s : State) : Host.Outcome State Fault Refusal :=
  runStd g (aluRegister rotlResult g x y z) s

/-- 0x4F, `rotr x,y,z` (R121). -/
def execRotr (g : Guard) (x : Reg) (y : Reg) (z : Reg) (s : State) : Host.Outcome State Fault Refusal :=
  runStd g (aluRegister rotrResult g x y z) s

end Sys2Proof.Machine
end

