-- ==== Sys2Proof/Machine/CompactAlu.lean ====
section
/-! DEFINITION. Compact classes C-ALU-R and C-ALU-I, 0xC0-0xDF (46_compact.md R232, R233): `x = y = w`, `z = q` or `n = q`. -/

namespace Sys2Proof.Machine

/-- 0xC0, `c.add x,z` (R232, R108). -/
def execCAdd (x : Reg) (z : Reg) (s : State) : Host.Outcome State Fault Refusal :=
  runCompact (aluRegister addResult .always x x z) s

/-- 0xC1, `c.sub x,z` (R232, R109). -/
def execCSub (x : Reg) (z : Reg) (s : State) : Host.Outcome State Fault Refusal :=
  runCompact (aluRegister subResult .always x x z) s

/-- 0xC2, `c.umul x,z` (R232, R110). -/
def execCUmul (x : Reg) (z : Reg) (s : State) : Host.Outcome State Fault Refusal :=
  runCompact (wideRegister umulResult .always x x z) s

/-- 0xC3, `c.smul x,z` (R232, R111). -/
def execCSmul (x : Reg) (z : Reg) (s : State) : Host.Outcome State Fault Refusal :=
  runCompact (wideRegister smulResult .always x x z) s

/-- 0xC4, `c.udiv x,z` (R232, R112). -/
def execCUdiv (x : Reg) (z : Reg) (s : State) : Host.Outcome State Fault Refusal :=
  runCompact (divideRegister udivResult .always x x z) s

/-- 0xC5, `c.sdiv x,z` (R232, R113). -/
def execCSdiv (x : Reg) (z : Reg) (s : State) : Host.Outcome State Fault Refusal :=
  runCompact (divideRegister sdivResult .always x x z) s

/-- 0xC8, `c.and x,z` (R232, R114). -/
def execCAnd (x : Reg) (z : Reg) (s : State) : Host.Outcome State Fault Refusal :=
  runCompact (aluRegister andResult .always x x z) s

/-- 0xC9, `c.or x,z` (R232, R115). -/
def execCOr (x : Reg) (z : Reg) (s : State) : Host.Outcome State Fault Refusal :=
  runCompact (aluRegister orResult .always x x z) s

/-- 0xCA, `c.xor x,z` (R232, R116). -/
def execCXor (x : Reg) (z : Reg) (s : State) : Host.Outcome State Fault Refusal :=
  runCompact (aluRegister xorResult .always x x z) s

/-- 0xCB, `c.shl x,z` (R232, R117). -/
def execCShl (x : Reg) (z : Reg) (s : State) : Host.Outcome State Fault Refusal :=
  runCompact (aluRegister shlResult .always x x z) s

/-- 0xCC, `c.shr x,z` (R232, R118). -/
def execCShr (x : Reg) (z : Reg) (s : State) : Host.Outcome State Fault Refusal :=
  runCompact (aluRegister shrResult .always x x z) s

/-- 0xCD, `c.sar x,z` (R232, R119). -/
def execCSar (x : Reg) (z : Reg) (s : State) : Host.Outcome State Fault Refusal :=
  runCompact (aluRegister sarResult .always x x z) s

/-- 0xCE, `c.rotl x,z` (R232, R120). -/
def execCRotl (x : Reg) (z : Reg) (s : State) : Host.Outcome State Fault Refusal :=
  runCompact (aluRegister rotlResult .always x x z) s

/-- 0xCF, `c.rotr x,z` (R232, R121). -/
def execCRotr (x : Reg) (z : Reg) (s : State) : Host.Outcome State Fault Refusal :=
  runCompact (aluRegister rotrResult .always x x z) s

/-- 0xD0, `c.add x,$n` (R233, R122). -/
def execCAddN (x : Reg) (n : BitVec 4) (s : State) : Host.Outcome State Fault Refusal :=
  runCompact (aluImmediate addResult .always x x (immAlu8 (compactN8 n))) s

/-- 0xD1, `c.sub x,$n` (R233, R123). -/
def execCSubN (x : Reg) (n : BitVec 4) (s : State) : Host.Outcome State Fault Refusal :=
  runCompact (aluImmediate subResult .always x x (immAlu8 (compactN8 n))) s

/-- 0xD2, `c.umul x,$n` (R233, R124). -/
def execCUmulN (x : Reg) (n : BitVec 4) (s : State) : Host.Outcome State Fault Refusal :=
  runCompact (wideImmediate umulResult .always x x (immAlu8 (compactN8 n))) s

/-- 0xD3, `c.smul x,$n` (R233, R125). -/
def execCSmulN (x : Reg) (n : BitVec 4) (s : State) : Host.Outcome State Fault Refusal :=
  runCompact (wideImmediate smulResult .always x x (immAlu8 (compactN8 n))) s

/-- 0xD4, `c.udiv x,$n` (R233, R126). -/
def execCUdivN (x : Reg) (n : BitVec 4) (s : State) : Host.Outcome State Fault Refusal :=
  runCompact (divideImmediate udivResult .always x x (immAlu8 (compactN8 n))) s

/-- 0xD5, `c.sdiv x,$n` (R233, R127). -/
def execCSdivN (x : Reg) (n : BitVec 4) (s : State) : Host.Outcome State Fault Refusal :=
  runCompact (divideImmediate sdivResult .always x x (immAlu8 (compactN8 n))) s

/-- 0xD8, `c.and x,$n` (R233, R128). -/
def execCAndN (x : Reg) (n : BitVec 4) (s : State) : Host.Outcome State Fault Refusal :=
  runCompact (aluImmediate andResult .always x x (immAlu8 (compactN8 n))) s

/-- 0xD9, `c.or x,$n` (R233, R129). -/
def execCOrN (x : Reg) (n : BitVec 4) (s : State) : Host.Outcome State Fault Refusal :=
  runCompact (aluImmediate orResult .always x x (immAlu8 (compactN8 n))) s

/-- 0xDA, `c.xor x,$n` (R233, R130). -/
def execCXorN (x : Reg) (n : BitVec 4) (s : State) : Host.Outcome State Fault Refusal :=
  runCompact (aluImmediate xorResult .always x x (immAlu8 (compactN8 n))) s

/-- 0xDB, `c.shl x,$n` (R233, R131). -/
def execCShlN (x : Reg) (n : BitVec 4) (s : State) : Host.Outcome State Fault Refusal :=
  runCompact (aluImmediate shlResult .always x x (immAlu8 (compactN8 n))) s

/-- 0xDC, `c.shr x,$n` (R233, R132). -/
def execCShrN (x : Reg) (n : BitVec 4) (s : State) : Host.Outcome State Fault Refusal :=
  runCompact (aluImmediate shrResult .always x x (immAlu8 (compactN8 n))) s

/-- 0xDD, `c.sar x,$n` (R233, R133). -/
def execCSarN (x : Reg) (n : BitVec 4) (s : State) : Host.Outcome State Fault Refusal :=
  runCompact (aluImmediate sarResult .always x x (immAlu8 (compactN8 n))) s

/-- 0xDE, `c.rotl x,$n` (R233, R134). -/
def execCRotlN (x : Reg) (n : BitVec 4) (s : State) : Host.Outcome State Fault Refusal :=
  runCompact (aluImmediate rotlResult .always x x (immAlu8 (compactN8 n))) s

/-- 0xDF, `c.rotr x,$n` (R233, R135). -/
def execCRotrN (x : Reg) (n : BitVec 4) (s : State) : Host.Outcome State Fault Refusal :=
  runCompact (aluImmediate rotrResult .always x x (immAlu8 (compactN8 n))) s

end Sys2Proof.Machine
end

