-- ==== Sys2Proof/Machine/CompactLoad.lean ====
section
/-! DEFINITION. Compact class C-LD, 0xF0-0xFF (46_compact.md R237): destination `w`, base `dsp`, offset 0 or index `q`. -/

namespace Sys2Proof.Machine

/-- 0xF0, `c.lb x` (R237, R162). -/
def execCLb (_q : BitVec 4) (x : Reg) (s : State) : Host.Outcome State Fault Refusal :=
  runCompact (loadOffset .byte .none x 12#4 (immMem 0#8)) s

/-- 0xF1, `c.lbi x` (R237, R163). -/
def execCLbi (_q : BitVec 4) (x : Reg) (s : State) : Host.Outcome State Fault Refusal :=
  runCompact (loadOffset .byte .postInc x 12#4 (immMem 0#8)) s

/-- 0xF2, `c.lbp x` (R237, R164). -/
def execCLbp (_q : BitVec 4) (x : Reg) (s : State) : Host.Outcome State Fault Refusal :=
  runCompact (loadOffset .byte .preDec x 12#4 (immMem 0#8)) s

/-- 0xF3, `c.lbd x` (R237, R165). -/
def execCLbd (_q : BitVec 4) (x : Reg) (s : State) : Host.Outcome State Fault Refusal :=
  runCompact (loadOffset .byte .postDec x 12#4 (immMem 0#8)) s

/-- 0xF4, `c.lh x` (R237, R166). -/
def execCLh (_q : BitVec 4) (x : Reg) (s : State) : Host.Outcome State Fault Refusal :=
  runCompact (loadOffset .half .none x 12#4 (immMem 0#8)) s

/-- 0xF5, `c.lhi x` (R237, R167). -/
def execCLhi (_q : BitVec 4) (x : Reg) (s : State) : Host.Outcome State Fault Refusal :=
  runCompact (loadOffset .half .postInc x 12#4 (immMem 0#8)) s

/-- 0xF6, `c.lhp x` (R237, R168). -/
def execCLhp (_q : BitVec 4) (x : Reg) (s : State) : Host.Outcome State Fault Refusal :=
  runCompact (loadOffset .half .preDec x 12#4 (immMem 0#8)) s

/-- 0xF7, `c.lhd x` (R237, R169). -/
def execCLhd (_q : BitVec 4) (x : Reg) (s : State) : Host.Outcome State Fault Refusal :=
  runCompact (loadOffset .half .postDec x 12#4 (immMem 0#8)) s

/-- 0xF8, `c.lw x` (R237, R170). -/
def execCLw (_q : BitVec 4) (x : Reg) (s : State) : Host.Outcome State Fault Refusal :=
  runCompact (loadOffset .word .none x 12#4 (immMem 0#8)) s

/-- 0xF9, `c.lwi x` (R237, R171). -/
def execCLwi (_q : BitVec 4) (x : Reg) (s : State) : Host.Outcome State Fault Refusal :=
  runCompact (loadOffset .word .postInc x 12#4 (immMem 0#8)) s

/-- 0xFA, `c.lwp x` (R237, R172). -/
def execCLwp (_q : BitVec 4) (x : Reg) (s : State) : Host.Outcome State Fault Refusal :=
  runCompact (loadOffset .word .preDec x 12#4 (immMem 0#8)) s

/-- 0xFB, `c.lwd x` (R237, R173). -/
def execCLwd (_q : BitVec 4) (x : Reg) (s : State) : Host.Outcome State Fault Refusal :=
  runCompact (loadOffset .word .postDec x 12#4 (immMem 0#8)) s

/-- 0xFC, `c.lbx x,z` (R237, R174). -/
def execCLbx (x : Reg) (z : Reg) (s : State) : Host.Outcome State Fault Refusal :=
  runCompact (loadIndexed .byte x 12#4 z) s

/-- 0xFD, `c.lhx x,z` (R237, R175). -/
def execCLhx (x : Reg) (z : Reg) (s : State) : Host.Outcome State Fault Refusal :=
  runCompact (loadIndexed .half x 12#4 z) s

/-- 0xFE, `c.lwx x,z` (R237, R176). -/
def execCLwx (x : Reg) (z : Reg) (s : State) : Host.Outcome State Fault Refusal :=
  runCompact (loadIndexed .word x 12#4 z) s

/-- 0xFF, `c.lwxi x,z` (R237, R177). -/
def execCLwxi (x : Reg) (z : Reg) (s : State) : Host.Outcome State Fault Refusal :=
  runCompact (loadIndexedInc x 12#4 z) s

end Sys2Proof.Machine
end

