-- ==== Sys2Proof/Machine/CompactOne.lean ====
section
/-! DEFINITION. Compact class C-1, 0x90-0x9F (46_compact.md R238): the one-operand instructions with `n = q:w` or `x = w`. -/

namespace Sys2Proof.Machine

/-- 0x90, `c.ba $n` (R238, R200). -/
def execCBa (n : BitVec 8) (s : State) : Host.Outcome State Fault Refusal :=
  runCompact (fun s => s.writePc (immBranch (compactN16 n))) s

/-- 0x91, `c.br $n` (R238, R201). -/
def execCBr (n : BitVec 8) (s : State) : Host.Outcome State Fault Refusal :=
  runCompact (fun s => s.writePc (s.pc + immBranch (compactN16 n))) s

/-- 0x92, `c.jf $n` (R238, R202). -/
def execCJf (n : BitVec 8) (s : State) : Host.Outcome State Fault Refusal :=
  runCompact (jumpFar (compactN16 n)) s

/-- 0x93, `c.last $n` (R238, R203). -/
def execCLast (_n : BitVec 8) (s : State) : Host.Outcome State Fault Refusal :=
  runCompact (fun s => s.writePc (s.pc - 8#32)) s

/-- 0x94, `c.call $n` (R238, R204). -/
def execCCall (n : BitVec 8) (s : State) : Host.Outcome State Fault Refusal :=
  runCompact (callTo fun _ => immCall (compactN16 n)) s

/-- 0x95, `c.callr $n` (R238, R205). -/
def execCCallr (n : BitVec 8) (s : State) : Host.Outcome State Fault Refusal :=
  runCompact (callTo fun s => s.pc + immCall (compactN16 n)) s

/-- 0x96, `c.fcall $n` (R238, R206). -/
def execCFcall (n : BitVec 8) (s : State) : Host.Outcome State Fault Refusal :=
  runCompact (fastCallTo fun _ => immCall (compactN16 n)) s

/-- 0x97, `c.fcallr $n` (R238, R207). -/
def execCFcallr (n : BitVec 8) (s : State) : Host.Outcome State Fault Refusal :=
  runCompact (fastCallTo fun s => s.pc + immCall (compactN16 n)) s

/-- 0x98, `c.int $n` (R238, R208). -/
def execCInt (n : BitVec 8) (s : State) : Host.Outcome State Fault Refusal :=
  runCompact (softwareInterrupt ((compactN16 n).zeroExtend 32)) s

/-- 0x99, `c.int x` (R238, R209). -/
def execCIntX (_q : BitVec 4) (x : Reg) (s : State) : Host.Outcome State Fault Refusal :=
  runCompact (fun s => softwareInterrupt (s.readReg x) s) s

/-- 0x9A, `c.lil $n` (R238, R210). -/
def execCLil (n : BitVec 8) (s : State) : Host.Outcome State Fault Refusal :=
  runCompact (fun s => s.writeReg 10#4 (withLower16 (s.readReg 10#4) (compactN16 n))) s

/-- 0x9B, `c.lih $n` (R238, R211). -/
def execCLih (n : BitVec 8) (s : State) : Host.Outcome State Fault Refusal :=
  runCompact (fun s => s.writeReg 10#4 (withHigher16 (s.readReg 10#4) (compactN16 n))) s

/-- 0x9C, `c.call x` (R238, R212). -/
def execCCallX (_q : BitVec 4) (x : Reg) (s : State) : Host.Outcome State Fault Refusal :=
  runCompact (callTo fun s => s.readReg x) s

/-- 0x9D, `c.callr x` (R238, R213). -/
def execCCallrX (_q : BitVec 4) (x : Reg) (s : State) : Host.Outcome State Fault Refusal :=
  runCompact (callTo fun s => s.pc + s.readReg x) s

/-- 0x9E, `c.fcall x` (R238, R214). -/
def execCFcallX (_q : BitVec 4) (x : Reg) (s : State) : Host.Outcome State Fault Refusal :=
  runCompact (fastCallTo fun s => s.readReg x) s

/-- 0x9F, `c.fcallr x` (R238, R215). -/
def execCFcallrX (_q : BitVec 4) (x : Reg) (s : State) : Host.Outcome State Fault Refusal :=
  runCompact (fastCallTo fun s => s.pc + s.readReg x) s

end Sys2Proof.Machine
end

