-- ==== Sys2Proof/Machine/CompactStore.lean ====
section
/-! DEFINITION. Compact class C-ST, 0xE0-0xEF (46_compact.md R236): base `dsp`, value `w`, offset 0 or index `q`. -/

namespace Sys2Proof.Machine

/-- 0xE0, `c.stb y` (R236, R142). -/
def execCStb (_q : BitVec 4) (y : Reg) (s : State) : Host.Outcome State Fault Refusal :=
  runCompact (storeOffset .byte .none 12#4 y (immMem 0#8)) s

/-- 0xE1, `c.stbi y` (R236, R143). -/
def execCStbi (_q : BitVec 4) (y : Reg) (s : State) : Host.Outcome State Fault Refusal :=
  runCompact (storeOffset .byte .postInc 12#4 y (immMem 0#8)) s

/-- 0xE2, `c.stbp y` (R236, R144). -/
def execCStbp (_q : BitVec 4) (y : Reg) (s : State) : Host.Outcome State Fault Refusal :=
  runCompact (storeOffset .byte .preDec 12#4 y (immMem 0#8)) s

/-- 0xE3, `c.stbd y` (R236, R145). -/
def execCStbd (_q : BitVec 4) (y : Reg) (s : State) : Host.Outcome State Fault Refusal :=
  runCompact (storeOffset .byte .postDec 12#4 y (immMem 0#8)) s

/-- 0xE4, `c.sth y` (R236, R146). -/
def execCSth (_q : BitVec 4) (y : Reg) (s : State) : Host.Outcome State Fault Refusal :=
  runCompact (storeOffset .half .none 12#4 y (immMem 0#8)) s

/-- 0xE5, `c.sthi y` (R236, R147). -/
def execCSthi (_q : BitVec 4) (y : Reg) (s : State) : Host.Outcome State Fault Refusal :=
  runCompact (storeOffset .half .postInc 12#4 y (immMem 0#8)) s

/-- 0xE6, `c.sthp y` (R236, R148). -/
def execCSthp (_q : BitVec 4) (y : Reg) (s : State) : Host.Outcome State Fault Refusal :=
  runCompact (storeOffset .half .preDec 12#4 y (immMem 0#8)) s

/-- 0xE7, `c.sthd y` (R236, R149). -/
def execCSthd (_q : BitVec 4) (y : Reg) (s : State) : Host.Outcome State Fault Refusal :=
  runCompact (storeOffset .half .postDec 12#4 y (immMem 0#8)) s

/-- 0xE8, `c.stw y` (R236, R150). -/
def execCStw (_q : BitVec 4) (y : Reg) (s : State) : Host.Outcome State Fault Refusal :=
  runCompact (storeOffset .word .none 12#4 y (immMem 0#8)) s

/-- 0xE9, `c.stwi y` (R236, R151). -/
def execCStwi (_q : BitVec 4) (y : Reg) (s : State) : Host.Outcome State Fault Refusal :=
  runCompact (storeOffset .word .postInc 12#4 y (immMem 0#8)) s

/-- 0xEA, `c.stwp y` (R236, R152). -/
def execCStwp (_q : BitVec 4) (y : Reg) (s : State) : Host.Outcome State Fault Refusal :=
  runCompact (storeOffset .word .preDec 12#4 y (immMem 0#8)) s

/-- 0xEB, `c.stwd y` (R236, R153). -/
def execCStwd (_q : BitVec 4) (y : Reg) (s : State) : Host.Outcome State Fault Refusal :=
  runCompact (storeOffset .word .postDec 12#4 y (immMem 0#8)) s

/-- 0xEC, `c.stbx y,z` (R236, R154). -/
def execCStbx (y : Reg) (z : Reg) (s : State) : Host.Outcome State Fault Refusal :=
  runCompact (storeIndexed .byte 12#4 y z) s

/-- 0xED, `c.sthx y,z` (R236, R155). -/
def execCSthx (y : Reg) (z : Reg) (s : State) : Host.Outcome State Fault Refusal :=
  runCompact (storeIndexed .half 12#4 y z) s

/-- 0xEE, `c.stwx y,z` (R236, R156). -/
def execCStwx (y : Reg) (z : Reg) (s : State) : Host.Outcome State Fault Refusal :=
  runCompact (storeIndexed .word 12#4 y z) s

/-- 0xEF, `c.stwxi y,z` (R236, R157). -/
def execCStwxi (y : Reg) (z : Reg) (s : State) : Host.Outcome State Fault Refusal :=
  runCompact (storeIndexedInc 12#4 y z) s

end Sys2Proof.Machine
end

