-- ==== Sys2Proof/Machine/CompactTwo.lean ====
section
/-! DEFINITION. Compact classes C-2R and C-2I, 0xA0-0xBF (46_compact.md R234, R235): `x = w`, `y = q` or `n = q`. -/

namespace Sys2Proof.Machine

/-- 0xA0, `c.mov x,y` (R234, R180). -/
def execCMov (x : Reg) (y : Reg) (s : State) : Host.Outcome State Fault Refusal :=
  runCompact (move x y) s

/-- 0xA1, `c.swp x,y` (R234, R181). -/
def execCSwp (x : Reg) (y : Reg) (s : State) : Host.Outcome State Fault Refusal :=
  runCompact (swap x y) s

/-- 0xA2, `c.not x,y` (R234, R182). -/
def execCNot (x : Reg) (y : Reg) (s : State) : Host.Outcome State Fault Refusal :=
  runCompact (unaryRegister notResult .always x y) s

/-- 0xA3, `c.cmp x,y` (R234, R183). -/
def execCCmp (x : Reg) (y : Reg) (s : State) : Host.Outcome State Fault Refusal :=
  runCompact (compare .always x y) s

/-- 0xA4, `c.sxb x,y` (R234, R184). -/
def execCSxb (x : Reg) (y : Reg) (s : State) : Host.Outcome State Fault Refusal :=
  runCompact (unaryRegister sxbResult .always x y) s

/-- 0xA5, `c.sxw x,y` (R234, R185). -/
def execCSxw (x : Reg) (y : Reg) (s : State) : Host.Outcome State Fault Refusal :=
  runCompact (unaryRegister sxwResult .always x y) s

/-- 0xA6, `c.zxb x,y` (R234, R186). -/
def execCZxb (x : Reg) (y : Reg) (s : State) : Host.Outcome State Fault Refusal :=
  runCompact (unaryRegister zxbResult .always x y) s

/-- 0xA7, `c.zxw x,y` (R234, R187). -/
def execCZxw (x : Reg) (y : Reg) (s : State) : Host.Outcome State Fault Refusal :=
  runCompact (unaryRegister zxwResult .always x y) s

/-- 0xAC, `c.mvhh x,y` (R234, R188). -/
def execCMvhh (x : Reg) (y : Reg) (s : State) : Host.Outcome State Fault Refusal :=
  runCompact (moveHalf withHigher16 higher16 x y) s

/-- 0xAD, `c.mvhl x,y` (R234, R189). -/
def execCMvhl (x : Reg) (y : Reg) (s : State) : Host.Outcome State Fault Refusal :=
  runCompact (moveHalf withLower16 higher16 x y) s

/-- 0xAE, `c.mvlh x,y` (R234, R190). -/
def execCMvlh (x : Reg) (y : Reg) (s : State) : Host.Outcome State Fault Refusal :=
  runCompact (moveHalf withHigher16 lower16 x y) s

/-- 0xAF, `c.mvll x,y` (R234, R191). -/
def execCMvll (x : Reg) (y : Reg) (s : State) : Host.Outcome State Fault Refusal :=
  runCompact (moveHalf withLower16 lower16 x y) s

/-- 0xB0, `c.add x,$n` (R235, R192). -/
def execCAddN12 (x : Reg) (n : BitVec 4) (s : State) : Host.Outcome State Fault Refusal :=
  runCompact (aluImmediate addResult .always x x (immAlu12 (compactN12 n))) s

/-- 0xB1, `c.sub x,$n` (R235, R193). -/
def execCSubN12 (x : Reg) (n : BitVec 4) (s : State) : Host.Outcome State Fault Refusal :=
  runCompact (aluImmediate subResult .always x x (immAlu12 (compactN12 n))) s

/-- 0xB8, `c.smov sysx,y` (R235, R194). -/
def execCSmovTo (x : Reg) (y : Reg) (s : State) : Host.Outcome State Fault Refusal :=
  runCompact (systemOnly .protection (moveToSystem x y)) s

/-- 0xB9, `c.smov x,sysy` (R235, R195). -/
def execCSmovFrom (x : Reg) (y : Reg) (s : State) : Host.Outcome State Fault Refusal :=
  runCompact (systemOnly .protection (moveFromSystem x y)) s

end Sys2Proof.Machine
end

