-- ==== Sys2Proof/Machine/Load.lean ====
section
/-! DEFINITION. The loads 0x70-0x7F (42_load.md R160 to R177). -/

namespace Sys2Proof.Machine

/-- 0x70, `lb x,y,$n` (R162). -/
def execLb (g : Guard) (x : Reg) (y : Reg) (n : BitVec 8) (s : State) : Host.Outcome State Fault Refusal :=
  runStd g (loadOffset .byte .none x y (immMem n)) s

/-- 0x71, `lbi x,y,$n` (R163). -/
def execLbi (g : Guard) (x : Reg) (y : Reg) (n : BitVec 8) (s : State) : Host.Outcome State Fault Refusal :=
  runStd g (loadOffset .byte .postInc x y (immMem n)) s

/-- 0x72, `lbp x,y,$n` (R164). -/
def execLbp (g : Guard) (x : Reg) (y : Reg) (n : BitVec 8) (s : State) : Host.Outcome State Fault Refusal :=
  runStd g (loadOffset .byte .preDec x y (immMem n)) s

/-- 0x73, `lbd x,y,$n` (R165). -/
def execLbd (g : Guard) (x : Reg) (y : Reg) (n : BitVec 8) (s : State) : Host.Outcome State Fault Refusal :=
  runStd g (loadOffset .byte .postDec x y (immMem n)) s

/-- 0x74, `lh x,y,$n` (R166). -/
def execLh (g : Guard) (x : Reg) (y : Reg) (n : BitVec 8) (s : State) : Host.Outcome State Fault Refusal :=
  runStd g (loadOffset .half .none x y (immMem n)) s

/-- 0x75, `lhi x,y,$n` (R167). -/
def execLhi (g : Guard) (x : Reg) (y : Reg) (n : BitVec 8) (s : State) : Host.Outcome State Fault Refusal :=
  runStd g (loadOffset .half .postInc x y (immMem n)) s

/-- 0x76, `lhp x,y,$n` (R168). -/
def execLhp (g : Guard) (x : Reg) (y : Reg) (n : BitVec 8) (s : State) : Host.Outcome State Fault Refusal :=
  runStd g (loadOffset .half .preDec x y (immMem n)) s

/-- 0x77, `lhd x,y,$n` (R169). -/
def execLhd (g : Guard) (x : Reg) (y : Reg) (n : BitVec 8) (s : State) : Host.Outcome State Fault Refusal :=
  runStd g (loadOffset .half .postDec x y (immMem n)) s

/-- 0x78, `lw x,y,$n` (R170). -/
def execLw (g : Guard) (x : Reg) (y : Reg) (n : BitVec 8) (s : State) : Host.Outcome State Fault Refusal :=
  runStd g (loadOffset .word .none x y (immMem n)) s

/-- 0x79, `lwi x,y,$n` (R171). -/
def execLwi (g : Guard) (x : Reg) (y : Reg) (n : BitVec 8) (s : State) : Host.Outcome State Fault Refusal :=
  runStd g (loadOffset .word .postInc x y (immMem n)) s

/-- 0x7A, `lwp x,y,$n` (R172). -/
def execLwp (g : Guard) (x : Reg) (y : Reg) (n : BitVec 8) (s : State) : Host.Outcome State Fault Refusal :=
  runStd g (loadOffset .word .preDec x y (immMem n)) s

/-- 0x7B, `lwd x,y,$n` (R173). -/
def execLwd (g : Guard) (x : Reg) (y : Reg) (n : BitVec 8) (s : State) : Host.Outcome State Fault Refusal :=
  runStd g (loadOffset .word .postDec x y (immMem n)) s

/-- 0x7C, `lbx x,y,z` (R174). -/
def execLbx (g : Guard) (x : Reg) (y : Reg) (z : Reg) (s : State) : Host.Outcome State Fault Refusal :=
  runStd g (loadIndexed .byte x y z) s

/-- 0x7D, `lhx x,y,z` (R175). -/
def execLhx (g : Guard) (x : Reg) (y : Reg) (z : Reg) (s : State) : Host.Outcome State Fault Refusal :=
  runStd g (loadIndexed .half x y z) s

/-- 0x7E, `lwx x,y,z` (R176). -/
def execLwx (g : Guard) (x : Reg) (y : Reg) (z : Reg) (s : State) : Host.Outcome State Fault Refusal :=
  runStd g (loadIndexed .word x y z) s

/-- 0x7F, `lwxi x,y,z` (R177). -/
def execLwxi (g : Guard) (x : Reg) (y : Reg) (z : Reg) (s : State) : Host.Outcome State Fault Refusal :=
  runStd g (loadIndexedInc x y z) s

end Sys2Proof.Machine
end

