-- ==== Sys2Proof/Machine/OneOperand.lean ====
section
/-! DEFINITION. The one-operand instructions 0x10-0x1F (44_one_operand.md R200 to R217). -/

namespace Sys2Proof.Machine

/-- 0x10, `ba $n` (R200). -/
def execBa (g : Guard) (n : BitVec 16) (s : State) : Host.Outcome State Fault Refusal :=
  runStd g (fun s => s.writePc (immBranch n)) s

/-- 0x11, `br $n` (R201). -/
def execBr (g : Guard) (n : BitVec 16) (s : State) : Host.Outcome State Fault Refusal :=
  runStd g (fun s => s.writePc (s.pc + immBranch n)) s

/-- 0x12, `jf $n` (R202). -/
def execJf (g : Guard) (n : BitVec 16) (s : State) : Host.Outcome State Fault Refusal :=
  runStd g (jumpFar n) s

/-- 0x13, `last $n` (R203). -/
def execLast (g : Guard) (_n : BitVec 16) (s : State) : Host.Outcome State Fault Refusal :=
  runStd g (fun s => s.writePc (s.pc - 8#32)) s

/-- 0x14, `call $n` (R204). -/
def execCall (g : Guard) (n : BitVec 16) (s : State) : Host.Outcome State Fault Refusal :=
  runStd g (callTo fun _ => immCall n) s

/-- 0x15, `callr $n` (R205). -/
def execCallr (g : Guard) (n : BitVec 16) (s : State) : Host.Outcome State Fault Refusal :=
  runStd g (callTo fun s => s.pc + immCall n) s

/-- 0x16, `fcall $n` (R206). -/
def execFcall (g : Guard) (n : BitVec 16) (s : State) : Host.Outcome State Fault Refusal :=
  runStd g (fastCallTo fun _ => immCall n) s

/-- 0x17, `fcallr $n` (R207). -/
def execFcallr (g : Guard) (n : BitVec 16) (s : State) : Host.Outcome State Fault Refusal :=
  runStd g (fastCallTo fun s => s.pc + immCall n) s

/-- 0x18, `int $n` (R208). -/
def execInt (g : Guard) (n : BitVec 16) (s : State) : Host.Outcome State Fault Refusal :=
  runStd g (softwareInterrupt (n.zeroExtend 32)) s

/-- 0x19, `int x` (R209). -/
def execIntX (g : Guard) (x : Reg) (s : State) : Host.Outcome State Fault Refusal :=
  runStd g (fun s => softwareInterrupt (s.readReg x) s) s

/-- 0x1A, `lil $n` (R210). -/
def execLil (g : Guard) (n : BitVec 16) (s : State) : Host.Outcome State Fault Refusal :=
  runStd g (fun s => s.writeReg 10#4 (withLower16 (s.readReg 10#4) n)) s

/-- 0x1B, `lih $n` (R211). -/
def execLih (g : Guard) (n : BitVec 16) (s : State) : Host.Outcome State Fault Refusal :=
  runStd g (fun s => s.writeReg 10#4 (withHigher16 (s.readReg 10#4) n)) s

/-- 0x1C, `call x` (R212). -/
def execCallX (g : Guard) (x : Reg) (s : State) : Host.Outcome State Fault Refusal :=
  runStd g (callTo fun s => s.readReg x) s

/-- 0x1D, `callr x` (R213). -/
def execCallrX (g : Guard) (x : Reg) (s : State) : Host.Outcome State Fault Refusal :=
  runStd g (callTo fun s => s.pc + s.readReg x) s

/-- 0x1E, `fcall x` (R214). -/
def execFcallX (g : Guard) (x : Reg) (s : State) : Host.Outcome State Fault Refusal :=
  runStd g (fastCallTo fun s => s.readReg x) s

/-- 0x1F, `fcallr x` (R215). -/
def execFcallrX (g : Guard) (x : Reg) (s : State) : Host.Outcome State Fault Refusal :=
  runStd g (fastCallTo fun s => s.pc + s.readReg x) s

end Sys2Proof.Machine
end

