-- ==== Sys2Proof/Machine/Reserved.lean ====
section
/-! DEFINITION. The reserved rows of the opcode table: executing one takes trap 2 (30_encoding.md R86, R92;
46_compact.md R239). A false condition skips a standard one (R83). -/

namespace Sys2Proof.Machine

/-- 0x00-0x07, reserved (R86). -/
def execRsvd00 (g : Guard) (_k : BitVec 3) (_lo : BitVec 16) (s : State) : Host.Outcome State Fault Refusal :=
  runStd g reservedOpcode s

/-- 0x0C, reserved (R225). -/
def execRsvd0C (g : Guard) (_lo : BitVec 16) (s : State) : Host.Outcome State Fault Refusal :=
  runStd g reservedOpcode s

/-- 0x0D, reserved (R225). -/
def execRsvd0D (g : Guard) (_lo : BitVec 16) (s : State) : Host.Outcome State Fault Refusal :=
  runStd g reservedOpcode s

/-- 0x0E, reserved (R225). -/
def execRsvd0E (g : Guard) (_lo : BitVec 16) (s : State) : Host.Outcome State Fault Refusal :=
  runStd g reservedOpcode s

/-- 0x28, reserved (R197). -/
def execRsvd28 (g : Guard) (_lo : BitVec 16) (s : State) : Host.Outcome State Fault Refusal :=
  runStd g reservedOpcode s

/-- 0x29, reserved (R197). -/
def execRsvd29 (g : Guard) (_lo : BitVec 16) (s : State) : Host.Outcome State Fault Refusal :=
  runStd g reservedOpcode s

/-- 0x2A, reserved (R197). -/
def execRsvd2A (g : Guard) (_lo : BitVec 16) (s : State) : Host.Outcome State Fault Refusal :=
  runStd g reservedOpcode s

/-- 0x2B, reserved (R197). -/
def execRsvd2B (g : Guard) (_lo : BitVec 16) (s : State) : Host.Outcome State Fault Refusal :=
  runStd g reservedOpcode s

/-- 0x32, reserved (R197). -/
def execRsvd32 (g : Guard) (_lo : BitVec 16) (s : State) : Host.Outcome State Fault Refusal :=
  runStd g reservedOpcode s

/-- 0x33, reserved (R197). -/
def execRsvd33 (g : Guard) (_lo : BitVec 16) (s : State) : Host.Outcome State Fault Refusal :=
  runStd g reservedOpcode s

/-- 0x34, reserved (R197). -/
def execRsvd34 (g : Guard) (_lo : BitVec 16) (s : State) : Host.Outcome State Fault Refusal :=
  runStd g reservedOpcode s

/-- 0x35, reserved (R197). -/
def execRsvd35 (g : Guard) (_lo : BitVec 16) (s : State) : Host.Outcome State Fault Refusal :=
  runStd g reservedOpcode s

/-- 0x36, reserved (R197). -/
def execRsvd36 (g : Guard) (_lo : BitVec 16) (s : State) : Host.Outcome State Fault Refusal :=
  runStd g reservedOpcode s

/-- 0x37, reserved (R197). -/
def execRsvd37 (g : Guard) (_lo : BitVec 16) (s : State) : Host.Outcome State Fault Refusal :=
  runStd g reservedOpcode s

/-- 0x3A, reserved (R197). -/
def execRsvd3A (g : Guard) (_lo : BitVec 16) (s : State) : Host.Outcome State Fault Refusal :=
  runStd g reservedOpcode s

/-- 0x3B, reserved (R197). -/
def execRsvd3B (g : Guard) (_lo : BitVec 16) (s : State) : Host.Outcome State Fault Refusal :=
  runStd g reservedOpcode s

/-- 0x3C, reserved (R197). -/
def execRsvd3C (g : Guard) (_lo : BitVec 16) (s : State) : Host.Outcome State Fault Refusal :=
  runStd g reservedOpcode s

/-- 0x3D, reserved (R197). -/
def execRsvd3D (g : Guard) (_lo : BitVec 16) (s : State) : Host.Outcome State Fault Refusal :=
  runStd g reservedOpcode s

/-- 0x3E, reserved (R197). -/
def execRsvd3E (g : Guard) (_lo : BitVec 16) (s : State) : Host.Outcome State Fault Refusal :=
  runStd g reservedOpcode s

/-- 0x3F, reserved (R197). -/
def execRsvd3F (g : Guard) (_lo : BitVec 16) (s : State) : Host.Outcome State Fault Refusal :=
  runStd g reservedOpcode s

/-- 0x46, reserved (R86). -/
def execRsvd46 (g : Guard) (_lo : BitVec 16) (s : State) : Host.Outcome State Fault Refusal :=
  runStd g reservedOpcode s

/-- 0x47, reserved (R86). -/
def execRsvd47 (g : Guard) (_lo : BitVec 16) (s : State) : Host.Outcome State Fault Refusal :=
  runStd g reservedOpcode s

/-- 0x56, reserved (R86). -/
def execRsvd56 (g : Guard) (_lo : BitVec 16) (s : State) : Host.Outcome State Fault Refusal :=
  runStd g reservedOpcode s

/-- 0x57, reserved (R86). -/
def execRsvd57 (g : Guard) (_lo : BitVec 16) (s : State) : Host.Outcome State Fault Refusal :=
  runStd g reservedOpcode s

/-- 0x80-0x8F, reserved (R239). -/
def execCRsvd80 (_k : BitVec 4) (_lo : BitVec 8) (s : State) : Host.Outcome State Fault Refusal :=
  runCompact reservedOpcode s

/-- 0xA8, reserved (R239). -/
def execCRsvdA8 (_lo : BitVec 8) (s : State) : Host.Outcome State Fault Refusal :=
  runCompact reservedOpcode s

/-- 0xA9, reserved (R239). -/
def execCRsvdA9 (_lo : BitVec 8) (s : State) : Host.Outcome State Fault Refusal :=
  runCompact reservedOpcode s

/-- 0xAA, reserved (R239). -/
def execCRsvdAA (_lo : BitVec 8) (s : State) : Host.Outcome State Fault Refusal :=
  runCompact reservedOpcode s

/-- 0xAB, reserved (R239). -/
def execCRsvdAB (_lo : BitVec 8) (s : State) : Host.Outcome State Fault Refusal :=
  runCompact reservedOpcode s

/-- 0xB2, reserved (R239). -/
def execCRsvdB2 (_lo : BitVec 8) (s : State) : Host.Outcome State Fault Refusal :=
  runCompact reservedOpcode s

/-- 0xB3, reserved (R239). -/
def execCRsvdB3 (_lo : BitVec 8) (s : State) : Host.Outcome State Fault Refusal :=
  runCompact reservedOpcode s

/-- 0xB4, reserved (R239). -/
def execCRsvdB4 (_lo : BitVec 8) (s : State) : Host.Outcome State Fault Refusal :=
  runCompact reservedOpcode s

/-- 0xB5, reserved (R239). -/
def execCRsvdB5 (_lo : BitVec 8) (s : State) : Host.Outcome State Fault Refusal :=
  runCompact reservedOpcode s

/-- 0xB6, reserved (R239). -/
def execCRsvdB6 (_lo : BitVec 8) (s : State) : Host.Outcome State Fault Refusal :=
  runCompact reservedOpcode s

/-- 0xB7, reserved (R239). -/
def execCRsvdB7 (_lo : BitVec 8) (s : State) : Host.Outcome State Fault Refusal :=
  runCompact reservedOpcode s

/-- 0xBA, reserved (R239). -/
def execCRsvdBA (_lo : BitVec 8) (s : State) : Host.Outcome State Fault Refusal :=
  runCompact reservedOpcode s

/-- 0xBB, reserved (R239). -/
def execCRsvdBB (_lo : BitVec 8) (s : State) : Host.Outcome State Fault Refusal :=
  runCompact reservedOpcode s

/-- 0xBC, reserved (R239). -/
def execCRsvdBC (_lo : BitVec 8) (s : State) : Host.Outcome State Fault Refusal :=
  runCompact reservedOpcode s

/-- 0xBD, reserved (R239). -/
def execCRsvdBD (_lo : BitVec 8) (s : State) : Host.Outcome State Fault Refusal :=
  runCompact reservedOpcode s

/-- 0xBE, reserved (R239). -/
def execCRsvdBE (_lo : BitVec 8) (s : State) : Host.Outcome State Fault Refusal :=
  runCompact reservedOpcode s

/-- 0xBF, reserved (R239). -/
def execCRsvdBF (_lo : BitVec 8) (s : State) : Host.Outcome State Fault Refusal :=
  runCompact reservedOpcode s

/-- 0xC6, reserved (R239). -/
def execCRsvdC6 (_lo : BitVec 8) (s : State) : Host.Outcome State Fault Refusal :=
  runCompact reservedOpcode s

/-- 0xC7, reserved (R239). -/
def execCRsvdC7 (_lo : BitVec 8) (s : State) : Host.Outcome State Fault Refusal :=
  runCompact reservedOpcode s

/-- 0xD6, reserved (R239). -/
def execCRsvdD6 (_lo : BitVec 8) (s : State) : Host.Outcome State Fault Refusal :=
  runCompact reservedOpcode s

/-- 0xD7, reserved (R239). -/
def execCRsvdD7 (_lo : BitVec 8) (s : State) : Host.Outcome State Fault Refusal :=
  runCompact reservedOpcode s

end Sys2Proof.Machine
end

