-- ==== Sys2Proof/Machine/Store.lean ====
section
/-! DEFINITION. The stores 0x60-0x6F (41_store.md R140 to R157). -/

namespace Sys2Proof.Machine

/-- 0x60, `stb x,y,$n` (R142). -/
def execStb (g : Guard) (x : Reg) (y : Reg) (n : BitVec 8) (s : State) : Host.Outcome State Fault Refusal :=
  runStd g (storeOffset .byte .none x y (immMem n)) s

/-- 0x61, `stbi x,y,$n` (R143). -/
def execStbi (g : Guard) (x : Reg) (y : Reg) (n : BitVec 8) (s : State) : Host.Outcome State Fault Refusal :=
  runStd g (storeOffset .byte .postInc x y (immMem n)) s

/-- 0x62, `stbp x,y,$n` (R144). -/
def execStbp (g : Guard) (x : Reg) (y : Reg) (n : BitVec 8) (s : State) : Host.Outcome State Fault Refusal :=
  runStd g (storeOffset .byte .preDec x y (immMem n)) s

/-- 0x63, `stbd x,y,$n` (R145). -/
def execStbd (g : Guard) (x : Reg) (y : Reg) (n : BitVec 8) (s : State) : Host.Outcome State Fault Refusal :=
  runStd g (storeOffset .byte .postDec x y (immMem n)) s

/-- 0x64, `sth x,y,$n` (R146). -/
def execSth (g : Guard) (x : Reg) (y : Reg) (n : BitVec 8) (s : State) : Host.Outcome State Fault Refusal :=
  runStd g (storeOffset .half .none x y (immMem n)) s

/-- 0x65, `sthi x,y,$n` (R147). -/
def execSthi (g : Guard) (x : Reg) (y : Reg) (n : BitVec 8) (s : State) : Host.Outcome State Fault Refusal :=
  runStd g (storeOffset .half .postInc x y (immMem n)) s

/-- 0x66, `sthp x,y,$n` (R148). -/
def execSthp (g : Guard) (x : Reg) (y : Reg) (n : BitVec 8) (s : State) : Host.Outcome State Fault Refusal :=
  runStd g (storeOffset .half .preDec x y (immMem n)) s

/-- 0x67, `sthd x,y,$n` (R149). -/
def execSthd (g : Guard) (x : Reg) (y : Reg) (n : BitVec 8) (s : State) : Host.Outcome State Fault Refusal :=
  runStd g (storeOffset .half .postDec x y (immMem n)) s

/-- 0x68, `stw x,y,$n` (R150). -/
def execStw (g : Guard) (x : Reg) (y : Reg) (n : BitVec 8) (s : State) : Host.Outcome State Fault Refusal :=
  runStd g (storeOffset .word .none x y (immMem n)) s

/-- 0x69, `stwi x,y,$n` (R151). -/
def execStwi (g : Guard) (x : Reg) (y : Reg) (n : BitVec 8) (s : State) : Host.Outcome State Fault Refusal :=
  runStd g (storeOffset .word .postInc x y (immMem n)) s

/-- 0x6A, `stwp x,y,$n` (R152). -/
def execStwp (g : Guard) (x : Reg) (y : Reg) (n : BitVec 8) (s : State) : Host.Outcome State Fault Refusal :=
  runStd g (storeOffset .word .preDec x y (immMem n)) s

/-- 0x6B, `stwd x,y,$n` (R153). -/
def execStwd (g : Guard) (x : Reg) (y : Reg) (n : BitVec 8) (s : State) : Host.Outcome State Fault Refusal :=
  runStd g (storeOffset .word .postDec x y (immMem n)) s

/-- 0x6C, `stbx x,y,z` (R154). -/
def execStbx (g : Guard) (x : Reg) (y : Reg) (z : Reg) (s : State) : Host.Outcome State Fault Refusal :=
  runStd g (storeIndexed .byte x y z) s

/-- 0x6D, `sthx x,y,z` (R155). -/
def execSthx (g : Guard) (x : Reg) (y : Reg) (z : Reg) (s : State) : Host.Outcome State Fault Refusal :=
  runStd g (storeIndexed .half x y z) s

/-- 0x6E, `stwx x,y,z` (R156). -/
def execStwx (g : Guard) (x : Reg) (y : Reg) (z : Reg) (s : State) : Host.Outcome State Fault Refusal :=
  runStd g (storeIndexed .word x y z) s

/-- 0x6F, `stwxi x,y,z` (R157). -/
def execStwxi (g : Guard) (x : Reg) (y : Reg) (z : Reg) (s : State) : Host.Outcome State Fault Refusal :=
  runStd g (storeIndexedInc x y z) s

end Sys2Proof.Machine
end

