-- ==== Sys2Proof/Machine/TwoOperand.lean ====
section
/-! DEFINITION. The two-operand instructions 0x20-0x3F (43_two_operand.md R180 to R197). -/

namespace Sys2Proof.Machine

/-- 0x20, `mov x,y` (R180). -/
def execMov (g : Guard) (x : Reg) (y : Reg) (s : State) : Host.Outcome State Fault Refusal :=
  runStd g (move x y) s

/-- 0x21, `swp x,y` (R181). -/
def execSwp (g : Guard) (x : Reg) (y : Reg) (s : State) : Host.Outcome State Fault Refusal :=
  runStd g (swap x y) s

/-- 0x22, `not x,y` (R182). -/
def execNot (g : Guard) (x : Reg) (y : Reg) (s : State) : Host.Outcome State Fault Refusal :=
  runStd g (unaryRegister notResult g x y) s

/-- 0x23, `cmp x,y` (R183). -/
def execCmp (g : Guard) (x : Reg) (y : Reg) (s : State) : Host.Outcome State Fault Refusal :=
  runStd g (compare g x y) s

/-- 0x24, `sxb x,y` (R184). -/
def execSxb (g : Guard) (x : Reg) (y : Reg) (s : State) : Host.Outcome State Fault Refusal :=
  runStd g (unaryRegister sxbResult g x y) s

/-- 0x25, `sxw x,y` (R185). -/
def execSxw (g : Guard) (x : Reg) (y : Reg) (s : State) : Host.Outcome State Fault Refusal :=
  runStd g (unaryRegister sxwResult g x y) s

/-- 0x26, `zxb x,y` (R186). -/
def execZxb (g : Guard) (x : Reg) (y : Reg) (s : State) : Host.Outcome State Fault Refusal :=
  runStd g (unaryRegister zxbResult g x y) s

/-- 0x27, `zxw x,y` (R187). -/
def execZxw (g : Guard) (x : Reg) (y : Reg) (s : State) : Host.Outcome State Fault Refusal :=
  runStd g (unaryRegister zxwResult g x y) s

/-- 0x2C, `mvhh x,y` (R188). -/
def execMvhh (g : Guard) (x : Reg) (y : Reg) (s : State) : Host.Outcome State Fault Refusal :=
  runStd g (moveHalf withHigher16 higher16 x y) s

/-- 0x2D, `mvhl x,y` (R189). -/
def execMvhl (g : Guard) (x : Reg) (y : Reg) (s : State) : Host.Outcome State Fault Refusal :=
  runStd g (moveHalf withLower16 higher16 x y) s

/-- 0x2E, `mvlh x,y` (R190). -/
def execMvlh (g : Guard) (x : Reg) (y : Reg) (s : State) : Host.Outcome State Fault Refusal :=
  runStd g (moveHalf withHigher16 lower16 x y) s

/-- 0x2F, `mvll x,y` (R191). -/
def execMvll (g : Guard) (x : Reg) (y : Reg) (s : State) : Host.Outcome State Fault Refusal :=
  runStd g (moveHalf withLower16 lower16 x y) s

/-- 0x30, `add x,$n` (R192). -/
def execAddN12 (g : Guard) (x : Reg) (n : BitVec 12) (s : State) : Host.Outcome State Fault Refusal :=
  runStd g (aluImmediate addResult g x x (immAlu12 n)) s

/-- 0x31, `sub x,$n` (R193). -/
def execSubN12 (g : Guard) (x : Reg) (n : BitVec 12) (s : State) : Host.Outcome State Fault Refusal :=
  runStd g (aluImmediate subResult g x x (immAlu12 n)) s

/-- 0x38, `smov sysx,y` (R194). -/
def execSmovTo (g : Guard) (x : Reg) (y : Reg) (s : State) : Host.Outcome State Fault Refusal :=
  runStd g (systemOnly .protection (moveToSystem x y)) s

/-- 0x39, `smov x,sysy` (R195). -/
def execSmovFrom (g : Guard) (x : Reg) (y : Reg) (s : State) : Host.Outcome State Fault Refusal :=
  runStd g (systemOnly .protection (moveFromSystem x y)) s

end Sys2Proof.Machine
end

