-- ==== Sys2Proof/Machine/ZeroOperand.lean ====
section
/-! DEFINITION. The zero-operand instructions 0x08-0x0F (45_zero_operand.md R220 to R225). -/

namespace Sys2Proof.Machine

/-- 0x08, `ret` (R220). -/
def execRet (g : Guard) (s : State) : Host.Outcome State Fault Refusal :=
  runStd g returnFromCall s

/-- 0x09, `fret` (R221). -/
def execFret (g : Guard) (s : State) : Host.Outcome State Fault Refusal :=
  runStd g returnFromFastCall s

/-- 0x0A, `sleep` (R222). -/
def execSleep (g : Guard) (s : State) : Host.Outcome State Fault Refusal :=
  runStd g (systemOnly .protection fun s => .ok (s.withSrBit 12 true)) s

/-- 0x0B, `rfi` (R223). -/
def execRfi (g : Guard) (s : State) : Host.Outcome State Fault Refusal :=
  runStd g (systemOnly .protection State.returnFromInterrupt) s

/-- 0x0F, `brk` (R224). -/
def execBrk (g : Guard) (s : State) : Host.Outcome State Fault Refusal :=
  runStd g (systemOnly .breakTrap fun s => .ok s) s

end Sys2Proof.Machine
end

