-- ==== Sys2Proof/Machine/Dispatch.lean ====
section
/-! DEFINITION. The meaning of every instruction: one arm per constructor of Instr, each one direct call. -/

namespace Sys2Proof.Machine

open Sys2Proof

def exec (i : Instr) (s : State) : Host.Outcome State Fault Refusal :=
  match i with
  | .rsvd00 g k lo => Sys2Proof.Machine.execRsvd00 g k lo s
  | .ret g => Sys2Proof.Machine.execRet g s
  | .fret g => Sys2Proof.Machine.execFret g s
  | .sleep g => Sys2Proof.Machine.execSleep g s
  | .rfi g => Sys2Proof.Machine.execRfi g s
  | .rsvd0C g lo => Sys2Proof.Machine.execRsvd0C g lo s
  | .rsvd0D g lo => Sys2Proof.Machine.execRsvd0D g lo s
  | .rsvd0E g lo => Sys2Proof.Machine.execRsvd0E g lo s
  | .brk g => Sys2Proof.Machine.execBrk g s
  | .ba g n => Sys2Proof.Machine.execBa g n s
  | .br g n => Sys2Proof.Machine.execBr g n s
  | .jf g n => Sys2Proof.Machine.execJf g n s
  | .last g n => Sys2Proof.Machine.execLast g n s
  | .call g n => Sys2Proof.Machine.execCall g n s
  | .callr g n => Sys2Proof.Machine.execCallr g n s
  | .fcall g n => Sys2Proof.Machine.execFcall g n s
  | .fcallr g n => Sys2Proof.Machine.execFcallr g n s
  | .int g n => Sys2Proof.Machine.execInt g n s
  | .intX g x => Sys2Proof.Machine.execIntX g x s
  | .lil g n => Sys2Proof.Machine.execLil g n s
  | .lih g n => Sys2Proof.Machine.execLih g n s
  | .callX g x => Sys2Proof.Machine.execCallX g x s
  | .callrX g x => Sys2Proof.Machine.execCallrX g x s
  | .fcallX g x => Sys2Proof.Machine.execFcallX g x s
  | .fcallrX g x => Sys2Proof.Machine.execFcallrX g x s
  | .mov g x y => Sys2Proof.Machine.execMov g x y s
  | .swp g x y => Sys2Proof.Machine.execSwp g x y s
  | .not g x y => Sys2Proof.Machine.execNot g x y s
  | .cmp g x y => Sys2Proof.Machine.execCmp g x y s
  | .sxb g x y => Sys2Proof.Machine.execSxb g x y s
  | .sxw g x y => Sys2Proof.Machine.execSxw g x y s
  | .zxb g x y => Sys2Proof.Machine.execZxb g x y s
  | .zxw g x y => Sys2Proof.Machine.execZxw g x y s
  | .rsvd28 g lo => Sys2Proof.Machine.execRsvd28 g lo s
  | .rsvd29 g lo => Sys2Proof.Machine.execRsvd29 g lo s
  | .rsvd2A g lo => Sys2Proof.Machine.execRsvd2A g lo s
  | .rsvd2B g lo => Sys2Proof.Machine.execRsvd2B g lo s
  | .mvhh g x y => Sys2Proof.Machine.execMvhh g x y s
  | .mvhl g x y => Sys2Proof.Machine.execMvhl g x y s
  | .mvlh g x y => Sys2Proof.Machine.execMvlh g x y s
  | .mvll g x y => Sys2Proof.Machine.execMvll g x y s
  | .addN12 g x n => Sys2Proof.Machine.execAddN12 g x n s
  | .subN12 g x n => Sys2Proof.Machine.execSubN12 g x n s
  | .rsvd32 g lo => Sys2Proof.Machine.execRsvd32 g lo s
  | .rsvd33 g lo => Sys2Proof.Machine.execRsvd33 g lo s
  | .rsvd34 g lo => Sys2Proof.Machine.execRsvd34 g lo s
  | .rsvd35 g lo => Sys2Proof.Machine.execRsvd35 g lo s
  | .rsvd36 g lo => Sys2Proof.Machine.execRsvd36 g lo s
  | .rsvd37 g lo => Sys2Proof.Machine.execRsvd37 g lo s
  | .smovTo g x y => Sys2Proof.Machine.execSmovTo g x y s
  | .smovFrom g x y => Sys2Proof.Machine.execSmovFrom g x y s
  | .rsvd3A g lo => Sys2Proof.Machine.execRsvd3A g lo s
  | .rsvd3B g lo => Sys2Proof.Machine.execRsvd3B g lo s
  | .rsvd3C g lo => Sys2Proof.Machine.execRsvd3C g lo s
  | .rsvd3D g lo => Sys2Proof.Machine.execRsvd3D g lo s
  | .rsvd3E g lo => Sys2Proof.Machine.execRsvd3E g lo s
  | .rsvd3F g lo => Sys2Proof.Machine.execRsvd3F g lo s
  | .add g x y z => Sys2Proof.Machine.execAdd g x y z s
  | .sub g x y z => Sys2Proof.Machine.execSub g x y z s
  | .umul g x y z => Sys2Proof.Machine.execUmul g x y z s
  | .smul g x y z => Sys2Proof.Machine.execSmul g x y z s
  | .udiv g x y z => Sys2Proof.Machine.execUdiv g x y z s
  | .sdiv g x y z => Sys2Proof.Machine.execSdiv g x y z s
  | .rsvd46 g lo => Sys2Proof.Machine.execRsvd46 g lo s
  | .rsvd47 g lo => Sys2Proof.Machine.execRsvd47 g lo s
  | .and g x y z => Sys2Proof.Machine.execAnd g x y z s
  | .or g x y z => Sys2Proof.Machine.execOr g x y z s
  | .xor g x y z => Sys2Proof.Machine.execXor g x y z s
  | .shl g x y z => Sys2Proof.Machine.execShl g x y z s
  | .shr g x y z => Sys2Proof.Machine.execShr g x y z s
  | .sar g x y z => Sys2Proof.Machine.execSar g x y z s
  | .rotl g x y z => Sys2Proof.Machine.execRotl g x y z s
  | .rotr g x y z => Sys2Proof.Machine.execRotr g x y z s
  | .addN g x y n => Sys2Proof.Machine.execAddN g x y n s
  | .subN g x y n => Sys2Proof.Machine.execSubN g x y n s
  | .umulN g x y n => Sys2Proof.Machine.execUmulN g x y n s
  | .smulN g x y n => Sys2Proof.Machine.execSmulN g x y n s
  | .udivN g x y n => Sys2Proof.Machine.execUdivN g x y n s
  | .sdivN g x y n => Sys2Proof.Machine.execSdivN g x y n s
  | .rsvd56 g lo => Sys2Proof.Machine.execRsvd56 g lo s
  | .rsvd57 g lo => Sys2Proof.Machine.execRsvd57 g lo s
  | .andN g x y n => Sys2Proof.Machine.execAndN g x y n s
  | .orN g x y n => Sys2Proof.Machine.execOrN g x y n s
  | .xorN g x y n => Sys2Proof.Machine.execXorN g x y n s
  | .shlN g x y n => Sys2Proof.Machine.execShlN g x y n s
  | .shrN g x y n => Sys2Proof.Machine.execShrN g x y n s
  | .sarN g x y n => Sys2Proof.Machine.execSarN g x y n s
  | .rotlN g x y n => Sys2Proof.Machine.execRotlN g x y n s
  | .rotrN g x y n => Sys2Proof.Machine.execRotrN g x y n s
  | .stb g x y n => Sys2Proof.Machine.execStb g x y n s
  | .stbi g x y n => Sys2Proof.Machine.execStbi g x y n s
  | .stbp g x y n => Sys2Proof.Machine.execStbp g x y n s
  | .stbd g x y n => Sys2Proof.Machine.execStbd g x y n s
  | .sth g x y n => Sys2Proof.Machine.execSth g x y n s
  | .sthi g x y n => Sys2Proof.Machine.execSthi g x y n s
  | .sthp g x y n => Sys2Proof.Machine.execSthp g x y n s
  | .sthd g x y n => Sys2Proof.Machine.execSthd g x y n s
  | .stw g x y n => Sys2Proof.Machine.execStw g x y n s
  | .stwi g x y n => Sys2Proof.Machine.execStwi g x y n s
  | .stwp g x y n => Sys2Proof.Machine.execStwp g x y n s
  | .stwd g x y n => Sys2Proof.Machine.execStwd g x y n s
  | .stbx g x y z => Sys2Proof.Machine.execStbx g x y z s
  | .sthx g x y z => Sys2Proof.Machine.execSthx g x y z s
  | .stwx g x y z => Sys2Proof.Machine.execStwx g x y z s
  | .stwxi g x y z => Sys2Proof.Machine.execStwxi g x y z s
  | .lb g x y n => Sys2Proof.Machine.execLb g x y n s
  | .lbi g x y n => Sys2Proof.Machine.execLbi g x y n s
  | .lbp g x y n => Sys2Proof.Machine.execLbp g x y n s
  | .lbd g x y n => Sys2Proof.Machine.execLbd g x y n s
  | .lh g x y n => Sys2Proof.Machine.execLh g x y n s
  | .lhi g x y n => Sys2Proof.Machine.execLhi g x y n s
  | .lhp g x y n => Sys2Proof.Machine.execLhp g x y n s
  | .lhd g x y n => Sys2Proof.Machine.execLhd g x y n s
  | .lw g x y n => Sys2Proof.Machine.execLw g x y n s
  | .lwi g x y n => Sys2Proof.Machine.execLwi g x y n s
  | .lwp g x y n => Sys2Proof.Machine.execLwp g x y n s
  | .lwd g x y n => Sys2Proof.Machine.execLwd g x y n s
  | .lbx g x y z => Sys2Proof.Machine.execLbx g x y z s
  | .lhx g x y z => Sys2Proof.Machine.execLhx g x y z s
  | .lwx g x y z => Sys2Proof.Machine.execLwx g x y z s
  | .lwxi g x y z => Sys2Proof.Machine.execLwxi g x y z s
  | .cRsvd80 k lo => Sys2Proof.Machine.execCRsvd80 k lo s
  | .cBa n => Sys2Proof.Machine.execCBa n s
  | .cBr n => Sys2Proof.Machine.execCBr n s
  | .cJf n => Sys2Proof.Machine.execCJf n s
  | .cLast n => Sys2Proof.Machine.execCLast n s
  | .cCall n => Sys2Proof.Machine.execCCall n s
  | .cCallr n => Sys2Proof.Machine.execCCallr n s
  | .cFcall n => Sys2Proof.Machine.execCFcall n s
  | .cFcallr n => Sys2Proof.Machine.execCFcallr n s
  | .cInt n => Sys2Proof.Machine.execCInt n s
  | .cIntX q x => Sys2Proof.Machine.execCIntX q x s
  | .cLil n => Sys2Proof.Machine.execCLil n s
  | .cLih n => Sys2Proof.Machine.execCLih n s
  | .cCallX q x => Sys2Proof.Machine.execCCallX q x s
  | .cCallrX q x => Sys2Proof.Machine.execCCallrX q x s
  | .cFcallX q x => Sys2Proof.Machine.execCFcallX q x s
  | .cFcallrX q x => Sys2Proof.Machine.execCFcallrX q x s
  | .cMov x y => Sys2Proof.Machine.execCMov x y s
  | .cSwp x y => Sys2Proof.Machine.execCSwp x y s
  | .cNot x y => Sys2Proof.Machine.execCNot x y s
  | .cCmp x y => Sys2Proof.Machine.execCCmp x y s
  | .cSxb x y => Sys2Proof.Machine.execCSxb x y s
  | .cSxw x y => Sys2Proof.Machine.execCSxw x y s
  | .cZxb x y => Sys2Proof.Machine.execCZxb x y s
  | .cZxw x y => Sys2Proof.Machine.execCZxw x y s
  | .cRsvdA8 lo => Sys2Proof.Machine.execCRsvdA8 lo s
  | .cRsvdA9 lo => Sys2Proof.Machine.execCRsvdA9 lo s
  | .cRsvdAA lo => Sys2Proof.Machine.execCRsvdAA lo s
  | .cRsvdAB lo => Sys2Proof.Machine.execCRsvdAB lo s
  | .cMvhh x y => Sys2Proof.Machine.execCMvhh x y s
  | .cMvhl x y => Sys2Proof.Machine.execCMvhl x y s
  | .cMvlh x y => Sys2Proof.Machine.execCMvlh x y s
  | .cMvll x y => Sys2Proof.Machine.execCMvll x y s
  | .cAddN12 x n => Sys2Proof.Machine.execCAddN12 x n s
  | .cSubN12 x n => Sys2Proof.Machine.execCSubN12 x n s
  | .cRsvdB2 lo => Sys2Proof.Machine.execCRsvdB2 lo s
  | .cRsvdB3 lo => Sys2Proof.Machine.execCRsvdB3 lo s
  | .cRsvdB4 lo => Sys2Proof.Machine.execCRsvdB4 lo s
  | .cRsvdB5 lo => Sys2Proof.Machine.execCRsvdB5 lo s
  | .cRsvdB6 lo => Sys2Proof.Machine.execCRsvdB6 lo s
  | .cRsvdB7 lo => Sys2Proof.Machine.execCRsvdB7 lo s
  | .cSmovTo x y => Sys2Proof.Machine.execCSmovTo x y s
  | .cSmovFrom x y => Sys2Proof.Machine.execCSmovFrom x y s
  | .cRsvdBA lo => Sys2Proof.Machine.execCRsvdBA lo s
  | .cRsvdBB lo => Sys2Proof.Machine.execCRsvdBB lo s
  | .cRsvdBC lo => Sys2Proof.Machine.execCRsvdBC lo s
  | .cRsvdBD lo => Sys2Proof.Machine.execCRsvdBD lo s
  | .cRsvdBE lo => Sys2Proof.Machine.execCRsvdBE lo s
  | .cRsvdBF lo => Sys2Proof.Machine.execCRsvdBF lo s
  | .cAdd x z => Sys2Proof.Machine.execCAdd x z s
  | .cSub x z => Sys2Proof.Machine.execCSub x z s
  | .cUmul x z => Sys2Proof.Machine.execCUmul x z s
  | .cSmul x z => Sys2Proof.Machine.execCSmul x z s
  | .cUdiv x z => Sys2Proof.Machine.execCUdiv x z s
  | .cSdiv x z => Sys2Proof.Machine.execCSdiv x z s
  | .cRsvdC6 lo => Sys2Proof.Machine.execCRsvdC6 lo s
  | .cRsvdC7 lo => Sys2Proof.Machine.execCRsvdC7 lo s
  | .cAnd x z => Sys2Proof.Machine.execCAnd x z s
  | .cOr x z => Sys2Proof.Machine.execCOr x z s
  | .cXor x z => Sys2Proof.Machine.execCXor x z s
  | .cShl x z => Sys2Proof.Machine.execCShl x z s
  | .cShr x z => Sys2Proof.Machine.execCShr x z s
  | .cSar x z => Sys2Proof.Machine.execCSar x z s
  | .cRotl x z => Sys2Proof.Machine.execCRotl x z s
  | .cRotr x z => Sys2Proof.Machine.execCRotr x z s
  | .cAddN x n => Sys2Proof.Machine.execCAddN x n s
  | .cSubN x n => Sys2Proof.Machine.execCSubN x n s
  | .cUmulN x n => Sys2Proof.Machine.execCUmulN x n s
  | .cSmulN x n => Sys2Proof.Machine.execCSmulN x n s
  | .cUdivN x n => Sys2Proof.Machine.execCUdivN x n s
  | .cSdivN x n => Sys2Proof.Machine.execCSdivN x n s
  | .cRsvdD6 lo => Sys2Proof.Machine.execCRsvdD6 lo s
  | .cRsvdD7 lo => Sys2Proof.Machine.execCRsvdD7 lo s
  | .cAndN x n => Sys2Proof.Machine.execCAndN x n s
  | .cOrN x n => Sys2Proof.Machine.execCOrN x n s
  | .cXorN x n => Sys2Proof.Machine.execCXorN x n s
  | .cShlN x n => Sys2Proof.Machine.execCShlN x n s
  | .cShrN x n => Sys2Proof.Machine.execCShrN x n s
  | .cSarN x n => Sys2Proof.Machine.execCSarN x n s
  | .cRotlN x n => Sys2Proof.Machine.execCRotlN x n s
  | .cRotrN x n => Sys2Proof.Machine.execCRotrN x n s
  | .cStb q y => Sys2Proof.Machine.execCStb q y s
  | .cStbi q y => Sys2Proof.Machine.execCStbi q y s
  | .cStbp q y => Sys2Proof.Machine.execCStbp q y s
  | .cStbd q y => Sys2Proof.Machine.execCStbd q y s
  | .cSth q y => Sys2Proof.Machine.execCSth q y s
  | .cSthi q y => Sys2Proof.Machine.execCSthi q y s
  | .cSthp q y => Sys2Proof.Machine.execCSthp q y s
  | .cSthd q y => Sys2Proof.Machine.execCSthd q y s
  | .cStw q y => Sys2Proof.Machine.execCStw q y s
  | .cStwi q y => Sys2Proof.Machine.execCStwi q y s
  | .cStwp q y => Sys2Proof.Machine.execCStwp q y s
  | .cStwd q y => Sys2Proof.Machine.execCStwd q y s
  | .cStbx y z => Sys2Proof.Machine.execCStbx y z s
  | .cSthx y z => Sys2Proof.Machine.execCSthx y z s
  | .cStwx y z => Sys2Proof.Machine.execCStwx y z s
  | .cStwxi y z => Sys2Proof.Machine.execCStwxi y z s
  | .cLb q x => Sys2Proof.Machine.execCLb q x s
  | .cLbi q x => Sys2Proof.Machine.execCLbi q x s
  | .cLbp q x => Sys2Proof.Machine.execCLbp q x s
  | .cLbd q x => Sys2Proof.Machine.execCLbd q x s
  | .cLh q x => Sys2Proof.Machine.execCLh q x s
  | .cLhi q x => Sys2Proof.Machine.execCLhi q x s
  | .cLhp q x => Sys2Proof.Machine.execCLhp q x s
  | .cLhd q x => Sys2Proof.Machine.execCLhd q x s
  | .cLw q x => Sys2Proof.Machine.execCLw q x s
  | .cLwi q x => Sys2Proof.Machine.execCLwi q x s
  | .cLwp q x => Sys2Proof.Machine.execCLwp q x s
  | .cLwd q x => Sys2Proof.Machine.execCLwd q x s
  | .cLbx x z => Sys2Proof.Machine.execCLbx x z s
  | .cLhx x z => Sys2Proof.Machine.execCLhx x z s
  | .cLwx x z => Sys2Proof.Machine.execCLwx x z s
  | .cLwxi x z => Sys2Proof.Machine.execCLwxi x z s

end Sys2Proof.Machine
end

