-- ==== Sys2Proof/Machine/Run.lean ====
section
/-! DEFINITION. One boundary of the event loop (60_exceptions.md R267): reset, NMI, hardware interrupt, halt, or the
fetch and execution of one 32-bit word, a standard instruction or a whole compact pair (30_encoding.md R77,
46_compact.md R231). -/

namespace Sys2Proof.Machine

/-- The fetch: the 32-bit word at `pc` (30_encoding.md R70). -/
def fetch (s : State) : Except Trap Word := memRead s .fetch s.pc .word

/-- A standard word that is no instruction: trap 2, before the condition for the condition byte, after it for a
must-be-zero operand bit (R77, R87). -/
def runReject (e : Reject) (s : State) : Host.Outcome State Fault Refusal :=
  match e with
  | .mustBeZero g => runStd g reservedOpcode s
  | .compactWord => .next (s.trapEntry .invalidOpcode)
  | .reservedV => .next (s.trapEntry .invalidOpcode)
  | .reservedCond => .next (s.trapEntry .invalidOpcode)
  | .rrNotZero => .next (s.trapEntry .invalidOpcode)
  | .markerClear => .next (s.trapEntry .invalidOpcode)

/-- One half of a compact pair; a clear marker raises trap 2 (R91). -/
def runHalf (h : Half) (s : State) : Host.Outcome State Fault Refusal :=
  match decodeHalf h with
  | .ok i => exec i s
  | .error _ => .next (s.trapEntry .invalidOpcode)

/-- Run the latched second half, at a later time than the first, if the first half has left one (R231). -/
def runLatched (s : State) : Host.Outcome State Fault Refusal :=
  match s.latch with
  | some h => runHalf h { s with latch := none, busTime := s.busTime + 1 }
  | none => .next s

/-- A compact pair: instruction 1, then instruction 2 as latched at the fetch, unless instruction 1 trapped (R231). -/
def runPair (first second : Half) (s : State) : Host.Outcome State Fault Refusal :=
  match runHalf first { s with latch := some second } with
  | .next t => runLatched t
  | .fault e => .fault e
  | .refused e => .refused e

/-- Execute a fetched word; `pc` already holds the address of the next one (R77). -/
def runWord (w : Word) (s : State) : Host.Outcome State Fault Refusal :=
  if w.msb then runPair (lower16 w) (higher16 w) s
  else match decodeStd w with
    | .ok i => exec i s
    | .error e => runReject e s

/-- `pc <- pc + 4` (10_state.md R22); what the instruction reads, it reads after its fetch (20_memory.md R58). -/
def State.advance (s : State) : State := { s with pc := s.pc + 4#32, busTime := s.busTime + 1 }

/-- Fetch and execute: a failing fetch traps with `pc` not advanced (R256). -/
def fetchAndRun (s : State) : Host.Outcome State Fault Refusal :=
  match fetch s with
  | .ok w => runWord w s.advance
  | .error t => .next (s.trapEntry t)

/-- The events of a boundary in their order: reset, NMI, hardware interrupt, halted, fetch (R267). -/
def boundary (s : State) : Host.Outcome State Fault Refusal :=
  match s.resetLine with
  | .low => .next s
  | .risen => .next s.performReset
  | .high =>
    if s.nmiPending ≠ 0 then
      .next (State.interruptEntry { s with nmiPending := s.nmiPending - 1 } nmiIndex)
    else match s.flagI, s.irqPending with
      | false, k :: rest => .next (State.interruptEntry { s with irqPending := rest } k)
      | _, _ => if s.flagF then .next s else fetchAndRun s

/-- One step: a boundary. A state that holds a latched half is in the middle of a pair, where no event is looked at
(R231, R267); no step ends in one. -/
def stepCycle (s : State) : Host.Outcome State Fault Refusal :=
  match s.latch with
  | some _ => runLatched s
  | none => boundary s

/-- The halfword `c.mov r0,r0`, which changes nothing and fills the other half of a pair (46_compact.md R230). -/
def fillerHalf : Half := 0xA000#16

/-- The 32-bit word that makes the fetch run an instruction of the table: a standard word as it is; a compact
halfword as instruction 1 of a pair whose instruction 2 is the filler (log 20). -/
def wordOfTable (nbits w : Nat) : Word :=
  if nbits = 16 then fillerHalf ++ BitVec.ofNat 16 w else BitVec.ofNat 32 w

/-- `s` with a table instruction stored at `pc` and with nothing left that would keep the next step from fetching it
(log 7, log 20). -/
def placeWord (s : State) (nbits w : Nat) : State :=
  { s.withSrBit 12 false with
    pc := clear2 s.pc
    mem := storeBytes s.mem (clear2 s.pc) .word (wordOfTable nbits w)
    latch := none
    memMap := s.memMap.filter fun d => decide ((clear2 s.pc).toNat + 4 ≤ d.lo) || decide (d.hi < (clear2 s.pc).toNat)
    failing := s.failing.filter fun f => f.kind != .fetch
    irqPending := if s.flagI then s.irqPending else []
    nmiPending := 0
    resetLine := .high }

end Sys2Proof.Machine
end

