-- ==== Sys2Proof/Machine/Step.lean ====
section
/-! DEFINITION. The step of the machine and the placing of one instruction; both only call Machine/Run.lean. -/

namespace Sys2Proof.Machine

/-- One step of the Mira2204: one boundary of the event loop (60_exceptions.md R267). -/
def step (s : State) : Host.Outcome State Fault Refusal := stepCycle s

/-- `s` with the table instruction `w` stored where the next step fetches. -/
def State.withFetchWord (s : State) (nbits w : Nat) : State := placeWord s nbits w

end Sys2Proof.Machine
end

