-- ==== Sys2Proof/Safety.lean ====
section
/-! DEFINITION. What counts as a well-formed state and as a halted one, and the vocabulary of the statements: the plain
write of a register, a word stored or pushed in memory, how an instruction ends. -/

namespace Sys2Proof.Machine

/-! ## States -/

/-- What every boundary state has: `pc` is a multiple of 4 (10_state.md R23), the unimplemented bits of `sr` are 0
(R25), the low two bits of `sii` are 0 (R35), memory is canonical, and no half of a pair is pending (R37 b). -/
abbrev State.Inv (s : State) : Prop :=
  aligned4 s.pc = true ∧ s.sr &&& ~~~srMask = 0#16 ∧ clear2 s.sii = s.sii ∧ s.mem.wf = true ∧ s.latch = none

/-- A state from which the next step fetches: no event is due, F is clear, no half is pending (60_exceptions.md
R267). -/
abbrev State.Ready (s : State) : Prop :=
  s.latch = none ∧ s.resetLine = .high ∧ s.nmiPending = 0 ∧ (s.flagI = true ∨ s.irqPending = []) ∧ s.flagF = false

/-- A halted CPU with no event due (60_exceptions.md R272). -/
abbrev State.Halted (s : State) : Prop :=
  s.latch = none ∧ s.resetLine = .high ∧ s.nmiPending = 0 ∧ (s.flagI = true ∨ s.irqPending = []) ∧ s.flagF = true

/-- The error ending: halted by a trap raised with T set (60_exceptions.md R257, R272). -/
abbrev State.DoubleTrapHalted (s : State) : Prop := s.flagF = true ∧ s.flagT = true ∧ s.flagP = false

/-- The next step fetches the word `w`: an aligned `pc`, a fetch the platform lets through, and `w` what the four
bytes at `pc` read as (30_encoding.md R70, R77). -/
abbrev State.Fetches (s : State) (w : Word) : Prop :=
  s.Ready ∧ aligned4 s.pc = true ∧ accessFails s .fetch s.pc .word = false ∧ s.busValue .fetch s.pc .word = w

/-- The two states agree on the inputs of the CPU, which no instruction changes (10_state.md R37 a, c). -/
abbrev State.SameInputs (s t : State) : Prop :=
  t.memMap = s.memMap ∧ t.failing = s.failing ∧ t.irqPending = s.irqPending ∧ t.nmiPending = s.nmiPending ∧
    t.resetLine = s.resetLine

/-! ## Registers -/

/-- The plain write of register 0 to 13: r0 to r11, `dsp`, `isp` (10_state.md R31). -/
def State.setGeneral (s : State) (x : Reg) (v : Word) : State :=
  if h : x.toNat < 12 then { s with r := s.r.set x.toNat v }
  else if x = 12#4 then { s with dsp := v }
  else if x = 13#4 then { s with isp := v }
  else s

/-- Bits 12:8 of `sr`: F, T, S, P, I (10_state.md R27). -/
def State.control (s : State) : BitVec 5 := s.sr.extractLsb' 8 5

/-! ## Memory -/

/-- `after` is `before` with the low bytes of `v` at `a` and every other byte as it was (20_memory.md R56). -/
abbrev StoredAt (before after : Memory) (a : Word) (w : Width) (v : Word) : Prop :=
  (∀ i < widthBytes w, readByte after (byteAddress a i) = valueByte v (byteLane (widthBytes w) i)) ∧
  ∀ b, (∀ i < widthBytes w, b ≠ byteAddress a i) → readByte after b = readByte before b

/-- `after` is `before` with `first` in the word below `top`, `second` in the word below that, and every other byte as
it was (60_exceptions.md R254). -/
abbrev PushedTwo (before after : Memory) (top first second : Word) : Prop :=
  (∀ i < 4, readByte after (byteAddress (top - 4#32) i) = valueByte first (byteLane 4 i)) ∧
  (∀ i < 4, readByte after (byteAddress (top - 8#32) i) = valueByte second (byteLane 4 i)) ∧
  ∀ b, (∀ i < 4, b ≠ byteAddress (top - 4#32) i ∧ b ≠ byteAddress (top - 8#32) i) →
    readByte after b = readByte before b

/-- The two words below `top` can be written: it is a multiple of 4 and the platform lets both writes through
(20_memory.md R56). -/
abbrev State.CanPushTwo (s : State) (top : Word) : Prop :=
  misaligned top .word = false ∧ accessFails s .write (top - 4#32) .word = false ∧
    accessFails s .write (top - 8#32) .word = false

/-- The data access at `a` is aligned and the platform lets it through (20_memory.md R53, 60_exceptions.md R263). -/
abbrev State.CanAccess (s : State) (kind : AccessKind) (a : Word) (w : Width) : Prop :=
  misaligned a w = false ∧ accessFails s kind a w = false

/-- The address of entry `k` of the vector table (60_exceptions.md R253). -/
def State.vectorAddress (s : State) (k : BitVec 8) : Word := clear2 s.sii + 4#32 * k.zeroExtend 32

/-- An entry through index `k` with the system stack at `top` can be delivered: both pushes and the vector read go
through (60_exceptions.md R261). -/
abbrev State.CanEnter (s : State) (top : Word) (k : BitVec 8) : Prop :=
  s.CanPushTwo top ∧ accessFails s .read (s.vectorAddress k) .word = false

/-- The call stack that an entry pushes on: `isp`, or `ssp` from protected mode (60_exceptions.md R255, R260). -/
def State.systemStack (s : State) : Word := if s.flagP then s.ssp else s.isp

/-! ## Flags -/

/-- `after` is `before` with the flags that `u` names replaced and every other bit kept (10_state.md R26, R28). -/
abbrev FlagsReplaced (before after : Half) (u : FlagUpdate) : Prop :=
  ∀ i, after.getLsbD i =
    if i = 0 then u.z.getD (before.getLsbD 0)
    else if i = 1 then u.c.getD (before.getLsbD 1)
    else if i = 6 then u.v.getD (before.getLsbD 6)
    else if i = 7 then u.n.getD (before.getLsbD 7)
    else before.getLsbD i

/-! ## How an instruction ends -/

/-- The state after an instruction whose statements gave `e`: the trap it raised, or its writes, with the context
switch to protected mode when P has risen (10_state.md R32, 60_exceptions.md R252; for an instruction that also writes
`pc`, log 21). -/
def State.conclude (s : State) (e : Effect) : State :=
  match e with
  | .error k => s.trapEntry k
  | .ok t =>
    if s.flagP = false ∧ t.flagP = true then
      (if aligned4 t.spc then t.exchange else s.trapEntry .pcAlign)
    else t

end Sys2Proof.Machine
end

