-- ==== Sys2Proof/Certificates/Slice0/Obligations.lean ====
section
/-! DEFINITION. The statements for the provers. First, tables that say for each instruction of the opcode table what
its rule of spec/ gives it: its guard, its destination, its result or address (`Guard.always` for a compact
instruction). Then the statements over these tables. "The spec's decision D<n>" in a docstring: spec/ marks the point
as its own choice (92_eei_decisions.md), which the model follows (log 15). `busValue` is what a read delivers, the
bytes of memory or a device's free value; `busTime` is the model's counter behind that free value (log 8). -/

namespace Sys2Proof.Rows

open Sys2Proof.Machine

/-- The register forms of the arithmetic and logic operations with one result: instruction, guard, destination, result.
A compact form has `y = x` and goes to `sr` unconditionally. -/
inductive AluRegisterRow (s : State) : Instr → Guard → Reg → AluOut → Prop where
  /-- R108 -/
  | add (g : Guard) (x y z : Reg) :
    AluRegisterRow s (.add g x y z) g x (addResult (s.readReg y) (s.readReg z))
  /-- R109 -/
  | sub (g : Guard) (x y z : Reg) :
    AluRegisterRow s (.sub g x y z) g x (subResult (s.readReg y) (s.readReg z))
  /-- R114 -/
  | and (g : Guard) (x y z : Reg) :
    AluRegisterRow s (.and g x y z) g x (andResult (s.readReg y) (s.readReg z))
  /-- R115 -/
  | or (g : Guard) (x y z : Reg) :
    AluRegisterRow s (.or g x y z) g x (orResult (s.readReg y) (s.readReg z))
  /-- R116 -/
  | xor (g : Guard) (x y z : Reg) :
    AluRegisterRow s (.xor g x y z) g x (xorResult (s.readReg y) (s.readReg z))
  /-- R117 -/
  | shl (g : Guard) (x y z : Reg) :
    AluRegisterRow s (.shl g x y z) g x (shlResult (s.readReg y) (s.readReg z))
  /-- R118 -/
  | shr (g : Guard) (x y z : Reg) :
    AluRegisterRow s (.shr g x y z) g x (shrResult (s.readReg y) (s.readReg z))
  /-- R119 -/
  | sar (g : Guard) (x y z : Reg) :
    AluRegisterRow s (.sar g x y z) g x (sarResult (s.readReg y) (s.readReg z))
  /-- R120 -/
  | rotl (g : Guard) (x y z : Reg) :
    AluRegisterRow s (.rotl g x y z) g x (rotlResult (s.readReg y) (s.readReg z))
  /-- R121 -/
  | rotr (g : Guard) (x y z : Reg) :
    AluRegisterRow s (.rotr g x y z) g x (rotrResult (s.readReg y) (s.readReg z))
  /-- R232, R108 -/
  | cAdd (x z : Reg) :
    AluRegisterRow s (.cAdd x z) .always x (addResult (s.readReg x) (s.readReg z))
  /-- R232, R109 -/
  | cSub (x z : Reg) :
    AluRegisterRow s (.cSub x z) .always x (subResult (s.readReg x) (s.readReg z))
  /-- R232, R114 -/
  | cAnd (x z : Reg) :
    AluRegisterRow s (.cAnd x z) .always x (andResult (s.readReg x) (s.readReg z))
  /-- R232, R115 -/
  | cOr (x z : Reg) :
    AluRegisterRow s (.cOr x z) .always x (orResult (s.readReg x) (s.readReg z))
  /-- R232, R116 -/
  | cXor (x z : Reg) :
    AluRegisterRow s (.cXor x z) .always x (xorResult (s.readReg x) (s.readReg z))
  /-- R232, R117 -/
  | cShl (x z : Reg) :
    AluRegisterRow s (.cShl x z) .always x (shlResult (s.readReg x) (s.readReg z))
  /-- R232, R118 -/
  | cShr (x z : Reg) :
    AluRegisterRow s (.cShr x z) .always x (shrResult (s.readReg x) (s.readReg z))
  /-- R232, R119 -/
  | cSar (x z : Reg) :
    AluRegisterRow s (.cSar x z) .always x (sarResult (s.readReg x) (s.readReg z))
  /-- R232, R120 -/
  | cRotl (x z : Reg) :
    AluRegisterRow s (.cRotl x z) .always x (rotlResult (s.readReg x) (s.readReg z))
  /-- R232, R121 -/
  | cRotr (x z : Reg) :
    AluRegisterRow s (.cRotr x z) .always x (rotrResult (s.readReg x) (s.readReg z))

/-- The immediate forms with one result, among them `add` and `sub` with a 12-bit immediate, where `y = x`. -/
inductive AluImmediateRow (s : State) : Instr → Guard → Reg → AluOut → Prop where
  /-- R122 -/
  | addN (g : Guard) (x y : Reg) (n : BitVec 8) :
    AluImmediateRow s (.addN g x y n) g x (addResult (s.readReg y) (immAlu8 n))
  /-- R123 -/
  | subN (g : Guard) (x y : Reg) (n : BitVec 8) :
    AluImmediateRow s (.subN g x y n) g x (subResult (s.readReg y) (immAlu8 n))
  /-- R128 -/
  | andN (g : Guard) (x y : Reg) (n : BitVec 8) :
    AluImmediateRow s (.andN g x y n) g x (andResult (s.readReg y) (immAlu8 n))
  /-- R129 -/
  | orN (g : Guard) (x y : Reg) (n : BitVec 8) :
    AluImmediateRow s (.orN g x y n) g x (orResult (s.readReg y) (immAlu8 n))
  /-- R130 -/
  | xorN (g : Guard) (x y : Reg) (n : BitVec 8) :
    AluImmediateRow s (.xorN g x y n) g x (xorResult (s.readReg y) (immAlu8 n))
  /-- R131 -/
  | shlN (g : Guard) (x y : Reg) (n : BitVec 8) :
    AluImmediateRow s (.shlN g x y n) g x (shlResult (s.readReg y) (immAlu8 n))
  /-- R132 -/
  | shrN (g : Guard) (x y : Reg) (n : BitVec 8) :
    AluImmediateRow s (.shrN g x y n) g x (shrResult (s.readReg y) (immAlu8 n))
  /-- R133 -/
  | sarN (g : Guard) (x y : Reg) (n : BitVec 8) :
    AluImmediateRow s (.sarN g x y n) g x (sarResult (s.readReg y) (immAlu8 n))
  /-- R134 -/
  | rotlN (g : Guard) (x y : Reg) (n : BitVec 8) :
    AluImmediateRow s (.rotlN g x y n) g x (rotlResult (s.readReg y) (immAlu8 n))
  /-- R135 -/
  | rotrN (g : Guard) (x y : Reg) (n : BitVec 8) :
    AluImmediateRow s (.rotrN g x y n) g x (rotrResult (s.readReg y) (immAlu8 n))
  /-- R233, R122 -/
  | cAddN (x : Reg) (n : BitVec 4) :
    AluImmediateRow s (.cAddN x n) .always x (addResult (s.readReg x) (immAlu8 (compactN8 n)))
  /-- R233, R123 -/
  | cSubN (x : Reg) (n : BitVec 4) :
    AluImmediateRow s (.cSubN x n) .always x (subResult (s.readReg x) (immAlu8 (compactN8 n)))
  /-- R233, R128 -/
  | cAndN (x : Reg) (n : BitVec 4) :
    AluImmediateRow s (.cAndN x n) .always x (andResult (s.readReg x) (immAlu8 (compactN8 n)))
  /-- R233, R129 -/
  | cOrN (x : Reg) (n : BitVec 4) :
    AluImmediateRow s (.cOrN x n) .always x (orResult (s.readReg x) (immAlu8 (compactN8 n)))
  /-- R233, R130 -/
  | cXorN (x : Reg) (n : BitVec 4) :
    AluImmediateRow s (.cXorN x n) .always x (xorResult (s.readReg x) (immAlu8 (compactN8 n)))
  /-- R233, R131 -/
  | cShlN (x : Reg) (n : BitVec 4) :
    AluImmediateRow s (.cShlN x n) .always x (shlResult (s.readReg x) (immAlu8 (compactN8 n)))
  /-- R233, R132 -/
  | cShrN (x : Reg) (n : BitVec 4) :
    AluImmediateRow s (.cShrN x n) .always x (shrResult (s.readReg x) (immAlu8 (compactN8 n)))
  /-- R233, R133 -/
  | cSarN (x : Reg) (n : BitVec 4) :
    AluImmediateRow s (.cSarN x n) .always x (sarResult (s.readReg x) (immAlu8 (compactN8 n)))
  /-- R233, R134 -/
  | cRotlN (x : Reg) (n : BitVec 4) :
    AluImmediateRow s (.cRotlN x n) .always x (rotlResult (s.readReg x) (immAlu8 (compactN8 n)))
  /-- R233, R135 -/
  | cRotrN (x : Reg) (n : BitVec 4) :
    AluImmediateRow s (.cRotrN x n) .always x (rotrResult (s.readReg x) (immAlu8 (compactN8 n)))
  /-- R192 -/
  | addN12 (g : Guard) (x : Reg) (n : BitVec 12) :
    AluImmediateRow s (.addN12 g x n) g x (addResult (s.readReg x) (immAlu12 n))
  /-- R193 -/
  | subN12 (g : Guard) (x : Reg) (n : BitVec 12) :
    AluImmediateRow s (.subN12 g x n) g x (subResult (s.readReg x) (immAlu12 n))
  /-- R235, R192 -/
  | cAddN12 (x : Reg) (n : BitVec 4) :
    AluImmediateRow s (.cAddN12 x n) .always x (addResult (s.readReg x) (immAlu12 (compactN12 n)))
  /-- R235, R193 -/
  | cSubN12 (x : Reg) (n : BitVec 4) :
    AluImmediateRow s (.cSubN12 x n) .always x (subResult (s.readReg x) (immAlu12 (compactN12 n)))

/-- The multiplications: instruction, guard, destination of the low word, the two words and the flags. -/
inductive MultiplyRow (s : State) : Instr → Guard → Reg → WideOut → Prop where
  /-- R110 -/
  | umul (g : Guard) (x y z : Reg) :
    MultiplyRow s (.umul g x y z) g x (umulResult (s.readReg y) (s.readReg z))
  /-- R111 -/
  | smul (g : Guard) (x y z : Reg) :
    MultiplyRow s (.smul g x y z) g x (smulResult (s.readReg y) (s.readReg z))
  /-- R124 -/
  | umulN (g : Guard) (x y : Reg) (n : BitVec 8) :
    MultiplyRow s (.umulN g x y n) g x (umulResult (s.readReg y) (immAlu8 n))
  /-- R125 -/
  | smulN (g : Guard) (x y : Reg) (n : BitVec 8) :
    MultiplyRow s (.smulN g x y n) g x (smulResult (s.readReg y) (immAlu8 n))
  /-- R232, R110 -/
  | cUmul (x z : Reg) :
    MultiplyRow s (.cUmul x z) .always x (umulResult (s.readReg x) (s.readReg z))
  /-- R232, R111 -/
  | cSmul (x z : Reg) :
    MultiplyRow s (.cSmul x z) .always x (smulResult (s.readReg x) (s.readReg z))
  /-- R233, R124 -/
  | cUmulN (x : Reg) (n : BitVec 4) :
    MultiplyRow s (.cUmulN x n) .always x (umulResult (s.readReg x) (immAlu8 (compactN8 n)))
  /-- R233, R125 -/
  | cSmulN (x : Reg) (n : BitVec 4) :
    MultiplyRow s (.cSmulN x n) .always x (smulResult (s.readReg x) (immAlu8 (compactN8 n)))

/-- The divisions: instruction, guard, destination of the quotient, divisor, and what a nonzero divisor gives. -/
inductive DivideRow (s : State) : Instr → Guard → Reg → Word → WideOut → Prop where
  /-- R112 -/
  | udiv (g : Guard) (x y z : Reg) :
    DivideRow s (.udiv g x y z) g x (s.readReg z) (udivResult (s.readReg y) (s.readReg z))
  /-- R113 -/
  | sdiv (g : Guard) (x y z : Reg) :
    DivideRow s (.sdiv g x y z) g x (s.readReg z) (sdivResult (s.readReg y) (s.readReg z))
  /-- R126 -/
  | udivN (g : Guard) (x y : Reg) (n : BitVec 8) :
    DivideRow s (.udivN g x y n) g x (immAlu8 n) (udivResult (s.readReg y) (immAlu8 n))
  /-- R127 -/
  | sdivN (g : Guard) (x y : Reg) (n : BitVec 8) :
    DivideRow s (.sdivN g x y n) g x (immAlu8 n) (sdivResult (s.readReg y) (immAlu8 n))
  /-- R232, R112 -/
  | cUdiv (x z : Reg) :
    DivideRow s (.cUdiv x z) .always x (s.readReg z) (udivResult (s.readReg x) (s.readReg z))
  /-- R232, R113 -/
  | cSdiv (x z : Reg) :
    DivideRow s (.cSdiv x z) .always x (s.readReg z) (sdivResult (s.readReg x) (s.readReg z))
  /-- R233, R126 -/
  | cUdivN (x : Reg) (n : BitVec 4) :
    DivideRow s (.cUdivN x n) .always x (immAlu8 (compactN8 n)) (udivResult (s.readReg x) (immAlu8 (compactN8 n)))
  /-- R233, R127 -/
  | cSdivN (x : Reg) (n : BitVec 4) :
    DivideRow s (.cSdivN x n) .always x (immAlu8 (compactN8 n)) (sdivResult (s.readReg x) (immAlu8 (compactN8 n)))

/-- The one-source operations with flags. -/
inductive UnaryRow (s : State) : Instr → Guard → Reg → AluOut → Prop where
  /-- R182 -/
  | not (g : Guard) (x y : Reg) :
    UnaryRow s (.not g x y) g x (notResult (s.readReg y))
  /-- R184 -/
  | sxb (g : Guard) (x y : Reg) :
    UnaryRow s (.sxb g x y) g x (sxbResult (s.readReg y))
  /-- R185 -/
  | sxw (g : Guard) (x y : Reg) :
    UnaryRow s (.sxw g x y) g x (sxwResult (s.readReg y))
  /-- R186 -/
  | zxb (g : Guard) (x y : Reg) :
    UnaryRow s (.zxb g x y) g x (zxbResult (s.readReg y))
  /-- R187 -/
  | zxw (g : Guard) (x y : Reg) :
    UnaryRow s (.zxw g x y) g x (zxwResult (s.readReg y))
  /-- R234, R182 -/
  | cNot (x y : Reg) :
    UnaryRow s (.cNot x y) .always x (notResult (s.readReg y))
  /-- R234, R184 -/
  | cSxb (x y : Reg) :
    UnaryRow s (.cSxb x y) .always x (sxbResult (s.readReg y))
  /-- R234, R185 -/
  | cSxw (x y : Reg) :
    UnaryRow s (.cSxw x y) .always x (sxwResult (s.readReg y))
  /-- R234, R186 -/
  | cZxb (x y : Reg) :
    UnaryRow s (.cZxb x y) .always x (zxbResult (s.readReg y))
  /-- R234, R187 -/
  | cZxw (x y : Reg) :
    UnaryRow s (.cZxw x y) .always x (zxwResult (s.readReg y))

/-- The moves, which write a register and no flag: instruction, guard, destination, value. -/
inductive MoveRow (s : State) : Instr → Guard → Reg → Word → Prop where
  /-- R180 -/
  | mov (g : Guard) (x y : Reg) :
    MoveRow s (.mov g x y) g x (s.readReg y)
  /-- R188 -/
  | mvhh (g : Guard) (x y : Reg) :
    MoveRow s (.mvhh g x y) g x ((s.readReg y).extractLsb' 16 16 ++ (s.readReg x).extractLsb' 0 16)
  /-- R189 -/
  | mvhl (g : Guard) (x y : Reg) :
    MoveRow s (.mvhl g x y) g x ((s.readReg x).extractLsb' 16 16 ++ (s.readReg y).extractLsb' 16 16)
  /-- R190 -/
  | mvlh (g : Guard) (x y : Reg) :
    MoveRow s (.mvlh g x y) g x ((s.readReg y).extractLsb' 0 16 ++ (s.readReg x).extractLsb' 0 16)
  /-- R191 -/
  | mvll (g : Guard) (x y : Reg) :
    MoveRow s (.mvll g x y) g x ((s.readReg x).extractLsb' 16 16 ++ (s.readReg y).extractLsb' 0 16)
  /-- R234, R180 -/
  | cMov (x y : Reg) :
    MoveRow s (.cMov x y) .always x (s.readReg y)
  /-- R234, R188 -/
  | cMvhh (x y : Reg) :
    MoveRow s (.cMvhh x y) .always x ((s.readReg y).extractLsb' 16 16 ++ (s.readReg x).extractLsb' 0 16)
  /-- R234, R189 -/
  | cMvhl (x y : Reg) :
    MoveRow s (.cMvhl x y) .always x ((s.readReg x).extractLsb' 16 16 ++ (s.readReg y).extractLsb' 16 16)
  /-- R234, R190 -/
  | cMvlh (x y : Reg) :
    MoveRow s (.cMvlh x y) .always x ((s.readReg y).extractLsb' 0 16 ++ (s.readReg x).extractLsb' 0 16)
  /-- R234, R191 -/
  | cMvll (x y : Reg) :
    MoveRow s (.cMvll x y) .always x ((s.readReg x).extractLsb' 16 16 ++ (s.readReg y).extractLsb' 0 16)
  /-- R210 -/
  | lil (g : Guard) (n : BitVec 16) :
    MoveRow s (.lil g n) g 10#4 ((s.readReg 10#4).extractLsb' 16 16 ++ n)
  /-- R211 -/
  | lih (g : Guard) (n : BitVec 16) :
    MoveRow s (.lih g n) g 10#4 (n ++ (s.readReg 10#4).extractLsb' 0 16)
  /-- R238, R210 -/
  | cLil (n : BitVec 8) :
    MoveRow s (.cLil n) .always 10#4 ((s.readReg 10#4).extractLsb' 16 16 ++ compactN16 n)
  /-- R238, R211 -/
  | cLih (n : BitVec 8) :
    MoveRow s (.cLih n) .always 10#4 (compactN16 n ++ (s.readReg 10#4).extractLsb' 0 16)

/-- The loads that update no base register: instruction, guard, destination, width, address. -/
inductive LoadRow (s : State) : Instr → Guard → Reg → Width → Word → Prop where
  /-- R162 -/
  | lb (g : Guard) (x y : Reg) (n : BitVec 8) :
    LoadRow s (.lb g x y n) g x .byte (s.readReg y + immMem n)
  /-- R166 -/
  | lh (g : Guard) (x y : Reg) (n : BitVec 8) :
    LoadRow s (.lh g x y n) g x .half (s.readReg y + immMem n)
  /-- R170 -/
  | lw (g : Guard) (x y : Reg) (n : BitVec 8) :
    LoadRow s (.lw g x y n) g x .word (s.readReg y + immMem n)
  /-- R237, R162 -/
  | cLb (q : BitVec 4) (x : Reg) :
    LoadRow s (.cLb q x) .always x .byte (s.dsp)
  /-- R237, R166 -/
  | cLh (q : BitVec 4) (x : Reg) :
    LoadRow s (.cLh q x) .always x .half (s.dsp)
  /-- R237, R170 -/
  | cLw (q : BitVec 4) (x : Reg) :
    LoadRow s (.cLw q x) .always x .word (s.dsp)
  /-- R174 -/
  | lbx (g : Guard) (x y z : Reg) :
    LoadRow s (.lbx g x y z) g x .byte (s.readReg y + s.readReg z)
  /-- R175 -/
  | lhx (g : Guard) (x y z : Reg) :
    LoadRow s (.lhx g x y z) g x .half (s.readReg y + s.readReg z)
  /-- R176 -/
  | lwx (g : Guard) (x y z : Reg) :
    LoadRow s (.lwx g x y z) g x .word (s.readReg y + s.readReg z)
  /-- R237, R174 -/
  | cLbx (x z : Reg) :
    LoadRow s (.cLbx x z) .always x .byte (s.dsp + s.readReg z)
  /-- R237, R175 -/
  | cLhx (x z : Reg) :
    LoadRow s (.cLhx x z) .always x .half (s.dsp + s.readReg z)
  /-- R237, R176 -/
  | cLwx (x z : Reg) :
    LoadRow s (.cLwx x z) .always x .word (s.dsp + s.readReg z)

/-- The loads that step their base register: instruction, guard, destination, base, width, update, offset. -/
inductive LoadUpdateRow : Instr → Guard → Reg → Reg → Width → Update → Word → Prop where
  /-- R163 -/
  | lbi (g : Guard) (x y : Reg) (n : BitVec 8) :
    LoadUpdateRow (.lbi g x y n) g x y .byte .postInc (immMem n)
  /-- R164 -/
  | lbp (g : Guard) (x y : Reg) (n : BitVec 8) :
    LoadUpdateRow (.lbp g x y n) g x y .byte .preDec (immMem n)
  /-- R165 -/
  | lbd (g : Guard) (x y : Reg) (n : BitVec 8) :
    LoadUpdateRow (.lbd g x y n) g x y .byte .postDec (immMem n)
  /-- R167 -/
  | lhi (g : Guard) (x y : Reg) (n : BitVec 8) :
    LoadUpdateRow (.lhi g x y n) g x y .half .postInc (immMem n)
  /-- R168 -/
  | lhp (g : Guard) (x y : Reg) (n : BitVec 8) :
    LoadUpdateRow (.lhp g x y n) g x y .half .preDec (immMem n)
  /-- R169 -/
  | lhd (g : Guard) (x y : Reg) (n : BitVec 8) :
    LoadUpdateRow (.lhd g x y n) g x y .half .postDec (immMem n)
  /-- R171 -/
  | lwi (g : Guard) (x y : Reg) (n : BitVec 8) :
    LoadUpdateRow (.lwi g x y n) g x y .word .postInc (immMem n)
  /-- R172 -/
  | lwp (g : Guard) (x y : Reg) (n : BitVec 8) :
    LoadUpdateRow (.lwp g x y n) g x y .word .preDec (immMem n)
  /-- R173 -/
  | lwd (g : Guard) (x y : Reg) (n : BitVec 8) :
    LoadUpdateRow (.lwd g x y n) g x y .word .postDec (immMem n)
  /-- R237, R163 -/
  | cLbi (q : BitVec 4) (x : Reg) :
    LoadUpdateRow (.cLbi q x) .always x 12#4 .byte .postInc 0#32
  /-- R237, R164 -/
  | cLbp (q : BitVec 4) (x : Reg) :
    LoadUpdateRow (.cLbp q x) .always x 12#4 .byte .preDec 0#32
  /-- R237, R165 -/
  | cLbd (q : BitVec 4) (x : Reg) :
    LoadUpdateRow (.cLbd q x) .always x 12#4 .byte .postDec 0#32
  /-- R237, R167 -/
  | cLhi (q : BitVec 4) (x : Reg) :
    LoadUpdateRow (.cLhi q x) .always x 12#4 .half .postInc 0#32
  /-- R237, R168 -/
  | cLhp (q : BitVec 4) (x : Reg) :
    LoadUpdateRow (.cLhp q x) .always x 12#4 .half .preDec 0#32
  /-- R237, R169 -/
  | cLhd (q : BitVec 4) (x : Reg) :
    LoadUpdateRow (.cLhd q x) .always x 12#4 .half .postDec 0#32
  /-- R237, R171 -/
  | cLwi (q : BitVec 4) (x : Reg) :
    LoadUpdateRow (.cLwi q x) .always x 12#4 .word .postInc 0#32
  /-- R237, R172 -/
  | cLwp (q : BitVec 4) (x : Reg) :
    LoadUpdateRow (.cLwp q x) .always x 12#4 .word .preDec 0#32
  /-- R237, R173 -/
  | cLwd (q : BitVec 4) (x : Reg) :
    LoadUpdateRow (.cLwd q x) .always x 12#4 .word .postDec 0#32

/-- The stores that update no base register: instruction, guard, width, address, value. -/
inductive StoreRow (s : State) : Instr → Guard → Width → Word → Word → Prop where
  /-- R142 -/
  | stb (g : Guard) (x y : Reg) (n : BitVec 8) :
    StoreRow s (.stb g x y n) g .byte (s.readReg x + immMem n) (s.readReg y)
  /-- R146 -/
  | sth (g : Guard) (x y : Reg) (n : BitVec 8) :
    StoreRow s (.sth g x y n) g .half (s.readReg x + immMem n) (s.readReg y)
  /-- R150 -/
  | stw (g : Guard) (x y : Reg) (n : BitVec 8) :
    StoreRow s (.stw g x y n) g .word (s.readReg x + immMem n) (s.readReg y)
  /-- R236, R142 -/
  | cStb (q : BitVec 4) (y : Reg) :
    StoreRow s (.cStb q y) .always .byte (s.dsp) (s.readReg y)
  /-- R236, R146 -/
  | cSth (q : BitVec 4) (y : Reg) :
    StoreRow s (.cSth q y) .always .half (s.dsp) (s.readReg y)
  /-- R236, R150 -/
  | cStw (q : BitVec 4) (y : Reg) :
    StoreRow s (.cStw q y) .always .word (s.dsp) (s.readReg y)
  /-- R154 -/
  | stbx (g : Guard) (x y z : Reg) :
    StoreRow s (.stbx g x y z) g .byte (s.readReg x + s.readReg z) (s.readReg y)
  /-- R155 -/
  | sthx (g : Guard) (x y z : Reg) :
    StoreRow s (.sthx g x y z) g .half (s.readReg x + s.readReg z) (s.readReg y)
  /-- R156 -/
  | stwx (g : Guard) (x y z : Reg) :
    StoreRow s (.stwx g x y z) g .word (s.readReg x + s.readReg z) (s.readReg y)
  /-- R236, R154 -/
  | cStbx (y z : Reg) :
    StoreRow s (.cStbx y z) .always .byte (s.dsp + s.readReg z) (s.readReg y)
  /-- R236, R155 -/
  | cSthx (y z : Reg) :
    StoreRow s (.cSthx y z) .always .half (s.dsp + s.readReg z) (s.readReg y)
  /-- R236, R156 -/
  | cStwx (y z : Reg) :
    StoreRow s (.cStwx y z) .always .word (s.dsp + s.readReg z) (s.readReg y)

/-- The stores that step their base register: instruction, guard, base, value register, width, update, offset. -/
inductive StoreUpdateRow : Instr → Guard → Reg → Reg → Width → Update → Word → Prop where
  /-- R143 -/
  | stbi (g : Guard) (x y : Reg) (n : BitVec 8) :
    StoreUpdateRow (.stbi g x y n) g x y .byte .postInc (immMem n)
  /-- R144 -/
  | stbp (g : Guard) (x y : Reg) (n : BitVec 8) :
    StoreUpdateRow (.stbp g x y n) g x y .byte .preDec (immMem n)
  /-- R145 -/
  | stbd (g : Guard) (x y : Reg) (n : BitVec 8) :
    StoreUpdateRow (.stbd g x y n) g x y .byte .postDec (immMem n)
  /-- R147 -/
  | sthi (g : Guard) (x y : Reg) (n : BitVec 8) :
    StoreUpdateRow (.sthi g x y n) g x y .half .postInc (immMem n)
  /-- R148 -/
  | sthp (g : Guard) (x y : Reg) (n : BitVec 8) :
    StoreUpdateRow (.sthp g x y n) g x y .half .preDec (immMem n)
  /-- R149 -/
  | sthd (g : Guard) (x y : Reg) (n : BitVec 8) :
    StoreUpdateRow (.sthd g x y n) g x y .half .postDec (immMem n)
  /-- R151 -/
  | stwi (g : Guard) (x y : Reg) (n : BitVec 8) :
    StoreUpdateRow (.stwi g x y n) g x y .word .postInc (immMem n)
  /-- R152 -/
  | stwp (g : Guard) (x y : Reg) (n : BitVec 8) :
    StoreUpdateRow (.stwp g x y n) g x y .word .preDec (immMem n)
  /-- R153 -/
  | stwd (g : Guard) (x y : Reg) (n : BitVec 8) :
    StoreUpdateRow (.stwd g x y n) g x y .word .postDec (immMem n)
  /-- R236, R143 -/
  | cStbi (q : BitVec 4) (y : Reg) :
    StoreUpdateRow (.cStbi q y) .always 12#4 y .byte .postInc 0#32
  /-- R236, R144 -/
  | cStbp (q : BitVec 4) (y : Reg) :
    StoreUpdateRow (.cStbp q y) .always 12#4 y .byte .preDec 0#32
  /-- R236, R145 -/
  | cStbd (q : BitVec 4) (y : Reg) :
    StoreUpdateRow (.cStbd q y) .always 12#4 y .byte .postDec 0#32
  /-- R236, R147 -/
  | cSthi (q : BitVec 4) (y : Reg) :
    StoreUpdateRow (.cSthi q y) .always 12#4 y .half .postInc 0#32
  /-- R236, R148 -/
  | cSthp (q : BitVec 4) (y : Reg) :
    StoreUpdateRow (.cSthp q y) .always 12#4 y .half .preDec 0#32
  /-- R236, R149 -/
  | cSthd (q : BitVec 4) (y : Reg) :
    StoreUpdateRow (.cSthd q y) .always 12#4 y .half .postDec 0#32
  /-- R236, R151 -/
  | cStwi (q : BitVec 4) (y : Reg) :
    StoreUpdateRow (.cStwi q y) .always 12#4 y .word .postInc 0#32
  /-- R236, R152 -/
  | cStwp (q : BitVec 4) (y : Reg) :
    StoreUpdateRow (.cStwp q y) .always 12#4 y .word .preDec 0#32
  /-- R236, R153 -/
  | cStwd (q : BitVec 4) (y : Reg) :
    StoreUpdateRow (.cStwd q y) .always 12#4 y .word .postDec 0#32

/-- The branches: instruction, guard, target. -/
inductive BranchRow (s : State) : Instr → Guard → Word → Prop where
  /-- R200 -/
  | ba (g : Guard) (n : BitVec 16) :
    BranchRow s (.ba g n) g (immBranch n)
  /-- R201 -/
  | br (g : Guard) (n : BitVec 16) :
    BranchRow s (.br g n) g (s.pc + immBranch n)
  /-- R203 -/
  | last (g : Guard) (n : BitVec 16) :
    BranchRow s (.last g n) g (s.pc - 8#32)
  /-- R238, R200 -/
  | cBa (n : BitVec 8) :
    BranchRow s (.cBa n) .always (immBranch (compactN16 n))
  /-- R238, R201 -/
  | cBr (n : BitVec 8) :
    BranchRow s (.cBr n) .always (s.pc + immBranch (compactN16 n))
  /-- R238, R203 -/
  | cLast (n : BitVec 8) :
    BranchRow s (.cLast n) .always (s.pc - 8#32)

/-- The calls through the call stack: instruction, guard, target. A register target is read after the two pushes, so
that register 13 is the new `isp`. -/
inductive CallRow (s : State) : Instr → Guard → Word → Prop where
  /-- R204 -/
  | call (g : Guard) (n : BitVec 16) :
    CallRow s (.call g n) g (immCall n)
  /-- R205 -/
  | callr (g : Guard) (n : BitVec 16) :
    CallRow s (.callr g n) g (s.pc + immCall n)
  /-- R212 -/
  | callX (g : Guard) (x : Reg) :
    CallRow s (.callX g x) g ((s.setGeneral 13#4 (s.isp - 8#32)).readReg x : Word)
  /-- R213 -/
  | callrX (g : Guard) (x : Reg) :
    CallRow s (.callrX g x) g (s.pc + (s.setGeneral 13#4 (s.isp - 8#32)).readReg x : Word)
  /-- R238, R204 -/
  | cCall (n : BitVec 8) :
    CallRow s (.cCall n) .always (immCall (compactN16 n))
  /-- R238, R205 -/
  | cCallr (n : BitVec 8) :
    CallRow s (.cCallr n) .always (s.pc + immCall (compactN16 n))
  /-- R238, R212 -/
  | cCallX (q : BitVec 4) (x : Reg) :
    CallRow s (.cCallX q x) .always ((s.setGeneral 13#4 (s.isp - 8#32)).readReg x : Word)
  /-- R238, R213 -/
  | cCallrX (q : BitVec 4) (x : Reg) :
    CallRow s (.cCallrX q x) .always (s.pc + (s.setGeneral 13#4 (s.isp - 8#32)).readReg x : Word)

/-- The fast calls: instruction, guard, target. A register target is read after r8 and r9 are written. -/
inductive FastCallRow (s : State) : Instr → Guard → Word → Prop where
  /-- R206 -/
  | fcall (g : Guard) (n : BitVec 16) :
    FastCallRow s (.fcall g n) g (immCall n)
  /-- R207 -/
  | fcallr (g : Guard) (n : BitVec 16) :
    FastCallRow s (.fcallr g n) g (s.pc + immCall n)
  /-- R214 -/
  | fcallX (g : Guard) (x : Reg) :
    FastCallRow s (.fcallX g x) g (((s.setGeneral 8#4 s.dsp).setGeneral 9#4 s.pc).readReg x : Word)
  /-- R215 -/
  | fcallrX (g : Guard) (x : Reg) :
    FastCallRow s (.fcallrX g x) g (s.pc + ((s.setGeneral 8#4 s.dsp).setGeneral 9#4 s.pc).readReg x : Word)
  /-- R238, R206 -/
  | cFcall (n : BitVec 8) :
    FastCallRow s (.cFcall n) .always (immCall (compactN16 n))
  /-- R238, R207 -/
  | cFcallr (n : BitVec 8) :
    FastCallRow s (.cFcallr n) .always (s.pc + immCall (compactN16 n))
  /-- R238, R214 -/
  | cFcallX (q : BitVec 4) (x : Reg) :
    FastCallRow s (.cFcallX q x) .always (((s.setGeneral 8#4 s.dsp).setGeneral 9#4 s.pc).readReg x : Word)
  /-- R238, R215 -/
  | cFcallrX (q : BitVec 4) (x : Reg) :
    FastCallRow s (.cFcallrX q x) .always (s.pc + ((s.setGeneral 8#4 s.dsp).setGeneral 9#4 s.pc).readReg x : Word)

/-- The software interrupts: instruction, guard, value. -/
inductive SoftwareInterruptRow (s : State) : Instr → Guard → Word → Prop where
  /-- R208 -/
  | int (g : Guard) (n : BitVec 16) :
    SoftwareInterruptRow s (.int g n) g (n.zeroExtend 32)
  /-- R238, R208 -/
  | cInt (n : BitVec 8) :
    SoftwareInterruptRow s (.cInt n) .always ((compactN16 n).zeroExtend 32)
  /-- R209 -/
  | intX (g : Guard) (x : Reg) :
    SoftwareInterruptRow s (.intX g x) g (s.readReg x)
  /-- R238, R209 -/
  | cIntX (q : BitVec 4) (x : Reg) :
    SoftwareInterruptRow s (.cIntX q x) .always (s.readReg x)

/-- The reserved opcodes of the table. -/
inductive ReservedRow : Instr → Guard → Prop where
  /-- R86 -/
  | rsvd00 (g : Guard) (k : BitVec 3) (lo : BitVec 16) :
    ReservedRow (.rsvd00 g k lo) g
  /-- R225 -/
  | rsvd0C (g : Guard) (lo : BitVec 16) :
    ReservedRow (.rsvd0C g lo) g
  /-- R225 -/
  | rsvd0D (g : Guard) (lo : BitVec 16) :
    ReservedRow (.rsvd0D g lo) g
  /-- R225 -/
  | rsvd0E (g : Guard) (lo : BitVec 16) :
    ReservedRow (.rsvd0E g lo) g
  /-- R197 -/
  | rsvd28 (g : Guard) (lo : BitVec 16) :
    ReservedRow (.rsvd28 g lo) g
  /-- R197 -/
  | rsvd29 (g : Guard) (lo : BitVec 16) :
    ReservedRow (.rsvd29 g lo) g
  /-- R197 -/
  | rsvd2A (g : Guard) (lo : BitVec 16) :
    ReservedRow (.rsvd2A g lo) g
  /-- R197 -/
  | rsvd2B (g : Guard) (lo : BitVec 16) :
    ReservedRow (.rsvd2B g lo) g
  /-- R197 -/
  | rsvd32 (g : Guard) (lo : BitVec 16) :
    ReservedRow (.rsvd32 g lo) g
  /-- R197 -/
  | rsvd33 (g : Guard) (lo : BitVec 16) :
    ReservedRow (.rsvd33 g lo) g
  /-- R197 -/
  | rsvd34 (g : Guard) (lo : BitVec 16) :
    ReservedRow (.rsvd34 g lo) g
  /-- R197 -/
  | rsvd35 (g : Guard) (lo : BitVec 16) :
    ReservedRow (.rsvd35 g lo) g
  /-- R197 -/
  | rsvd36 (g : Guard) (lo : BitVec 16) :
    ReservedRow (.rsvd36 g lo) g
  /-- R197 -/
  | rsvd37 (g : Guard) (lo : BitVec 16) :
    ReservedRow (.rsvd37 g lo) g
  /-- R197 -/
  | rsvd3A (g : Guard) (lo : BitVec 16) :
    ReservedRow (.rsvd3A g lo) g
  /-- R197 -/
  | rsvd3B (g : Guard) (lo : BitVec 16) :
    ReservedRow (.rsvd3B g lo) g
  /-- R197 -/
  | rsvd3C (g : Guard) (lo : BitVec 16) :
    ReservedRow (.rsvd3C g lo) g
  /-- R197 -/
  | rsvd3D (g : Guard) (lo : BitVec 16) :
    ReservedRow (.rsvd3D g lo) g
  /-- R197 -/
  | rsvd3E (g : Guard) (lo : BitVec 16) :
    ReservedRow (.rsvd3E g lo) g
  /-- R197 -/
  | rsvd3F (g : Guard) (lo : BitVec 16) :
    ReservedRow (.rsvd3F g lo) g
  /-- R86 -/
  | rsvd46 (g : Guard) (lo : BitVec 16) :
    ReservedRow (.rsvd46 g lo) g
  /-- R86 -/
  | rsvd47 (g : Guard) (lo : BitVec 16) :
    ReservedRow (.rsvd47 g lo) g
  /-- R86 -/
  | rsvd56 (g : Guard) (lo : BitVec 16) :
    ReservedRow (.rsvd56 g lo) g
  /-- R86 -/
  | rsvd57 (g : Guard) (lo : BitVec 16) :
    ReservedRow (.rsvd57 g lo) g
  /-- R239 -/
  | cRsvd80 (k : BitVec 4) (lo : BitVec 8) :
    ReservedRow (.cRsvd80 k lo) .always
  /-- R239 -/
  | cRsvdA8 (lo : BitVec 8) :
    ReservedRow (.cRsvdA8 lo) .always
  /-- R239 -/
  | cRsvdA9 (lo : BitVec 8) :
    ReservedRow (.cRsvdA9 lo) .always
  /-- R239 -/
  | cRsvdAA (lo : BitVec 8) :
    ReservedRow (.cRsvdAA lo) .always
  /-- R239 -/
  | cRsvdAB (lo : BitVec 8) :
    ReservedRow (.cRsvdAB lo) .always
  /-- R239 -/
  | cRsvdB2 (lo : BitVec 8) :
    ReservedRow (.cRsvdB2 lo) .always
  /-- R239 -/
  | cRsvdB3 (lo : BitVec 8) :
    ReservedRow (.cRsvdB3 lo) .always
  /-- R239 -/
  | cRsvdB4 (lo : BitVec 8) :
    ReservedRow (.cRsvdB4 lo) .always
  /-- R239 -/
  | cRsvdB5 (lo : BitVec 8) :
    ReservedRow (.cRsvdB5 lo) .always
  /-- R239 -/
  | cRsvdB6 (lo : BitVec 8) :
    ReservedRow (.cRsvdB6 lo) .always
  /-- R239 -/
  | cRsvdB7 (lo : BitVec 8) :
    ReservedRow (.cRsvdB7 lo) .always
  /-- R239 -/
  | cRsvdBA (lo : BitVec 8) :
    ReservedRow (.cRsvdBA lo) .always
  /-- R239 -/
  | cRsvdBB (lo : BitVec 8) :
    ReservedRow (.cRsvdBB lo) .always
  /-- R239 -/
  | cRsvdBC (lo : BitVec 8) :
    ReservedRow (.cRsvdBC lo) .always
  /-- R239 -/
  | cRsvdBD (lo : BitVec 8) :
    ReservedRow (.cRsvdBD lo) .always
  /-- R239 -/
  | cRsvdBE (lo : BitVec 8) :
    ReservedRow (.cRsvdBE lo) .always
  /-- R239 -/
  | cRsvdBF (lo : BitVec 8) :
    ReservedRow (.cRsvdBF lo) .always
  /-- R239 -/
  | cRsvdC6 (lo : BitVec 8) :
    ReservedRow (.cRsvdC6 lo) .always
  /-- R239 -/
  | cRsvdC7 (lo : BitVec 8) :
    ReservedRow (.cRsvdC7 lo) .always
  /-- R239 -/
  | cRsvdD6 (lo : BitVec 8) :
    ReservedRow (.cRsvdD6 lo) .always
  /-- R239 -/
  | cRsvdD7 (lo : BitVec 8) :
    ReservedRow (.cRsvdD7 lo) .always

/-- `jf`: instruction, guard, immediate. -/
inductive JumpFarRow : Instr → Guard → Half → Prop where
  /-- R202 -/
  | jf (g : Guard) (n : BitVec 16) :
    JumpFarRow (.jf g n) g n
  /-- R238, R202 -/
  | cJf (n : BitVec 8) :
    JumpFarRow (.cJf n) .always (compactN16 n)

/-- `swp`: instruction, guard, the two registers. -/
inductive SwapRow : Instr → Guard → Reg → Reg → Prop where
  /-- R181 -/
  | swp (g : Guard) (x y : Reg) :
    SwapRow (.swp g x y) g x y
  /-- R234, R181 -/
  | cSwp (x y : Reg) :
    SwapRow (.cSwp x y) .always x y

/-- `cmp`: instruction, guard, minuend, subtrahend. -/
inductive CompareRow : Instr → Guard → Reg → Reg → Prop where
  /-- R183 -/
  | cmp (g : Guard) (x y : Reg) :
    CompareRow (.cmp g x y) g x y
  /-- R234, R183 -/
  | cCmp (x y : Reg) :
    CompareRow (.cCmp x y) .always x y

/-- `smov sysx,y`: instruction, guard, system register number, source. -/
inductive SystemWriteRow : Instr → Guard → Reg → Reg → Prop where
  /-- R194 -/
  | smovTo (g : Guard) (x y : Reg) :
    SystemWriteRow (.smovTo g x y) g x y
  /-- R235, R194 -/
  | cSmovTo (x y : Reg) :
    SystemWriteRow (.cSmovTo x y) .always x y

/-- `smov x,sysy`: instruction, guard, destination, system register number. -/
inductive SystemReadRow : Instr → Guard → Reg → Reg → Prop where
  /-- R195 -/
  | smovFrom (g : Guard) (x y : Reg) :
    SystemReadRow (.smovFrom g x y) g x y
  /-- R235, R195 -/
  | cSmovFrom (x y : Reg) :
    SystemReadRow (.cSmovFrom x y) .always x y

/-- `stwxi`: instruction, guard, base, value register, index register. -/
inductive StoreIndexRow : Instr → Guard → Reg → Reg → Reg → Prop where
  /-- R157 -/
  | stwxi (g : Guard) (x y z : Reg) :
    StoreIndexRow (.stwxi g x y z) g x y z
  /-- R236, R157 -/
  | cStwxi (y z : Reg) :
    StoreIndexRow (.cStwxi y z) .always 12#4 y z

/-- `lwxi`: instruction, guard, destination, base, index register. -/
inductive LoadIndexRow : Instr → Guard → Reg → Reg → Reg → Prop where
  /-- R177 -/
  | lwxi (g : Guard) (x y z : Reg) :
    LoadIndexRow (.lwxi g x y z) g x y z
  /-- R237, R177 -/
  | cLwxi (x z : Reg) :
    LoadIndexRow (.cLwxi x z) .always x 12#4 z

/-- Every form that writes one computed value to one register `x` and then does no more than what `post` says:
instruction, guard, `x`, value, `post` (the flags, or r10 and the flags). -/
inductive ResultRow (s : State) : Instr → Guard → Reg → Word → (State → State) → Prop where
  | aluRegister (i : Instr) (g : Guard) (x : Reg) (o : AluOut) :
    AluRegisterRow s i g x o → ResultRow s i g x o.value (fun t => t.setFlags g o.flags)
  | aluImmediate (i : Instr) (g : Guard) (x : Reg) (o : AluOut) :
    AluImmediateRow s i g x o → ResultRow s i g x o.value (fun t => t.setFlags g o.flags)
  | unary (i : Instr) (g : Guard) (x : Reg) (o : AluOut) :
    UnaryRow s i g x o → ResultRow s i g x o.value (fun t => t.setFlags g o.flags)
  | multiply (i : Instr) (g : Guard) (x : Reg) (o : WideOut) :
    MultiplyRow s i g x o →
      ResultRow s i g x o.first (fun t => (t.setGeneral 10#4 o.second).setFlags g o.flags)
  | divide (i : Instr) (g : Guard) (x : Reg) (b : Word) (o : WideOut) :
    DivideRow s i g x b o → b ≠ 0#32 →
      ResultRow s i g x o.first (fun t => (t.setGeneral 10#4 o.second).setFlags g o.flags)
  | move (i : Instr) (g : Guard) (x : Reg) (v : Word) : MoveRow s i g x v → ResultRow s i g x v (fun t => t)
  | load (i : Instr) (g : Guard) (x : Reg) (w : Width) (a : Word) :
    LoadRow s i g x w a → s.CanAccess .read a w →
      ResultRow s i g x (mergeLoad w (s.readReg x) (s.busValue .read a w)) (fun t => t)

/-- The operand bits that the row of an opcode byte shows as 0 (30_encoding.md R73 to R76, R87 d). -/
def operandZeroMask (op : BitVec 8) : Half :=
  if op ∈ [0x08#8, 0x09#8, 0x0A#8, 0x0B#8, 0x0F#8] then 0xFFFF#16
  else if op ∈ [0x19#8, 0x1C#8, 0x1D#8, 0x1E#8, 0x1F#8] then 0xFFF0#16
  else if op ∈ [0x20#8, 0x21#8, 0x22#8, 0x23#8, 0x24#8, 0x25#8, 0x26#8, 0x27#8, 0x2C#8, 0x2D#8, 0x2E#8, 0x2F#8,
      0x38#8, 0x39#8] then 0xFF00#16
  else if op ∈ [0x40#8, 0x41#8, 0x42#8, 0x43#8, 0x44#8, 0x45#8, 0x48#8, 0x49#8, 0x4A#8, 0x4B#8, 0x4C#8, 0x4D#8,
      0x4E#8, 0x4F#8, 0x6C#8, 0x6D#8, 0x6E#8, 0x6F#8, 0x7C#8, 0x7D#8, 0x7E#8, 0x7F#8] then 0xF000#16
  else 0x0000#16

end Sys2Proof.Rows

section Statements

open Sys2Proof Sys2Proof.Machine Sys2Proof.Rows

/-! ## Encoding -/

/-- Every well-formed standard instruction, with every operand at every value, decodes from its own word, and every
compact instruction from its own halfword (R71 to R76, R81, R90, R92, R94). -/
def Obligations.EncodingRoundTrips : Prop :=
  (∀ i : Instr, i.isCompact = false → i.wellFormed = true → decodeStd (encode i) = .ok i) ∧
  (∀ i : Instr, i.isCompact = true → decodeHalf (lower16 (encode i)) = .ok i ∧ higher16 (encode i) = 0#16)

/-- The other direction: what the decoder accepts encodes back to the same bits, so each word means one instruction. -/
def Obligations.DecodedInstructionReencodes : Prop :=
  (∀ w i, decodeStd w = .ok i → encode i = w ∧ i.wellFormed = true ∧ i.isCompact = false) ∧
  (∀ h i, decodeHalf h = .ok i → lower16 (encode i) = h ∧ i.isCompact = true)

/-- Words written out from the spec's encodings, one or two a format, decode to what they stand for. -/
def Obligations.WrittenWordsDecode : Prop :=
  decodeStd 0x40000102#32 = .ok (.add ⟨.al, 0⟩ 2 0 1) ∧
  decodeStd 0x5000C801#32 = .ok (.addN ⟨.al, 0⟩ 1 0 200) ∧
  decodeStd 0x6A00002D#32 = .ok (.stwp ⟨.al, 0⟩ 13 2 0) ∧
  decodeStd 0x232F0021#32 = .ok (.cmp ⟨.f, 2⟩ 1 2) ∧
  decodeStd 0x30000C85#32 = .ok (.addN12 ⟨.al, 0⟩ 5 200) ∧
  decodeStd 0x11040003#32 = .ok (.br ⟨.eq, 0⟩ 3) ∧
  decodeStd 0x3800001F#32 = .ok (.smovTo ⟨.al, 0⟩ 15 1) ∧
  decodeStd 0x0B000000#32 = .ok (.rfi ⟨.al, 0⟩) ∧
  decodeHalf 0xC021#16 = .ok (.cAdd 1 2) ∧
  decodeHalf 0x9102#16 = .ok (.cBr 2) ∧
  decodeHalf 0xEE25#16 = .ok (.cStwx 5 2)

/-- A standard word whose condition byte is sound is accepted exactly when its must-be-zero operand bits are 0 (R87
d). Rests on the spec's decision D17. -/
def Obligations.MustBeZeroBitsDecideDecoding : Prop :=
  ∀ (w : Word) (g : Guard), w.msb = false → decodeGuard w = .ok g →
    (fieldLo w &&& operandZeroMask (fieldOp w) ≠ 0#16 → decodeStd w = .error (.mustBeZero g)) ∧
    (fieldLo w &&& operandZeroMask (fieldOp w) = 0#16 → ∃ i, decodeStd w = .ok i ∧ i.guard = some g)

/-! ## The step -/

/-- A step fetches the word at `pc`, moves `pc` past it and runs the standard instruction it decodes to (R22, R70,
R77). The model's counter of time moves on after the fetch (log 8). -/
def Obligations.StepRunsStandardWord : Prop :=
  ∀ (s : State) (w : Word) (i : Instr), s.Fetches w → decodeStd w = .ok i →
    step s = exec i { s with pc := s.pc + 4#32, busTime := s.busTime + 1 }

/-- A step on a compact pair runs instruction 1 with instruction 2 latched, then instruction 2 on what instruction 1
left, unless instruction 1 has dropped the latch by trapping; a clear marker of instruction 1 traps (R91, R231). Rests
on the spec's decision D25 and on log 8. -/
def Obligations.StepRunsCompactPair : Prop :=
  ∀ (s : State) (w : Word), s.Fetches w → w.msb = true →
    let start : State := { s with pc := s.pc + 4#32, busTime := s.busTime + 1, latch := some (higher16 w) }
    ((lower16 w).msb = false → step s = .next (start.trapEntry .invalidOpcode)) ∧
    ((lower16 w).msb = true → ∃ i j, decodeHalf (lower16 w) = .ok i ∧ decodeHalf (higher16 w) = .ok j ∧
      (∀ t, exec i start = .next t → t.latch = some (higher16 w) →
        step s = exec j { t with latch := none, busTime := t.busTime + 1 }) ∧
      (∀ t, exec i start = .next t → t.latch = none → step s = .next t))

/-- Only a trap, or an entry that fails, makes an instruction drop the latched half of its pair (R231, R241). Rests on
the spec's decision D20 and on log 14. -/
def Obligations.OnlyATrapAbortsTheSecondHalf : Prop :=
  ∀ (i : Instr) (s t : State), exec i s = .next t →
    t.latch = s.latch ∨ (t.latch = none ∧ ((∃ k, t = s.trapEntry k) ∨ t = s.halt))

/-- The encodings that no row matches: a reserved value of the condition byte takes trap 2 whatever the condition
would say; a 1 in a must-be-zero operand bit takes trap 2 when the condition is true and is skipped when it is false
(R77 steps 1 to 3, R87). Rests on the spec's decisions D17, D18 and on log 8. -/
def Obligations.ReservedFieldsTrap : Prop :=
  ∀ (s : State) (w : Word), s.Fetches w → w.msb = false →
    let after : State := { s with pc := s.pc + 4#32, busTime := s.busTime + 1 }
    ((w.extractLsb' 22 2 ≠ 0#2 ∨ w.extractLsb' 16 4 = 7#4 ∨ (w.extractLsb' 16 4 = 0#4 ∧ w.extractLsb' 20 2 ≠ 0#2)) →
      step s = .next (after.trapEntry .invalidOpcode)) ∧
    (∀ g, decodeGuard w = .ok g → fieldLo w &&& operandZeroMask (fieldOp w) ≠ 0#16 →
      (s.condHolds g = true → step s = .next (after.trapEntry .invalidOpcode)) ∧
      (s.condHolds g = false → step s = .next after))

/-- A fetch that the platform lets fail takes trap 9 with `pc` still at the failing word (R256, R263). Rests on the
spec's decisions D20, D37 and on log 9. -/
def Obligations.FailingFetchTraps : Prop :=
  ∀ s : State, s.Ready → aligned4 s.pc = true → accessFails s .fetch s.pc .word = true →
    step s = .next (s.trapEntry .access)

/-- The events of a boundary in their order: reset, NMI, hardware interrupt, halt (R267). The requests are the model's
lists (log 10, log 11) and the NMI index its parameter (log 6). Rests on the spec's decisions D24, D25, D34 and on
logs 12 and 13. -/
def Obligations.BoundaryTakesEventsInOrder : Prop :=
  ∀ s : State, s.latch = none →
    (s.resetLine = .low → step s = .next s) ∧
    (s.resetLine = .risen → step s = .next s.performReset) ∧
    (s.resetLine = .high → s.nmiPending ≠ 0 →
      step s = .next (State.interruptEntry { s with nmiPending := s.nmiPending - 1 } nmiIndex)) ∧
    (s.resetLine = .high → s.nmiPending = 0 → s.flagI = false → ∀ k rest, s.irqPending = k :: rest →
      step s = .next (State.interruptEntry { s with irqPending := rest } k)) ∧
    (s.Halted → step s = .next s)

/-- `withFetchWord` puts a table instruction where the next step fetches it and keeps every register but `pc`, which it
aligns, and F, which it clears; a compact halfword becomes instruction 1 of a pair (log 20). -/
def Obligations.PlacedWordIsFetched : Prop :=
  ∀ (s : State) (nbits w : Nat), s.mem.wf = true →
    let t := s.withFetchWord nbits w
    t.Fetches (if nbits = 16 then 0xA000#16 ++ BitVec.ofNat 16 w else BitVec.ofNat 32 w) ∧
    t.pc = clear2 s.pc ∧ (t.r = s.r ∧ t.dsp = s.dsp ∧ t.isp = s.isp ∧ t.ssp = s.ssp ∧ t.sii = s.sii ∧ t.spc = s.spc) ∧
    (∀ i, i ≠ 12 → t.sr.getLsbD i = s.sr.getLsbD i) ∧
    (∀ b, (∀ i < 4, b ≠ byteAddress (clear2 s.pc) i) → readByte t.mem b = readByte s.mem b)

/-- Every instruction and every step answers a next state: no fault and no refusal (R255, R257, R261, R272). Rests on
the spec's decisions D17, D22, D33, D34 and on log 13. -/
def Obligations.EveryStepAnswersNext : Prop :=
  (∀ (i : Instr) (s : State), ∃ t, exec i s = .next t) ∧ (∀ s : State, ∃ t, step s = .next t)

/-- Every step keeps the invariant: `pc` aligned, reserved bits of `sr` and `sii` zero, memory canonical, no half
pending. Rests on the spec's decisions D15, D20, D32 and on log 17. -/
def Obligations.StepKeepsInvariant : Prop :=
  ∀ s t : State, s.Inv → step s = .next t → t.Inv

/-- The state after reset has the invariant. -/
def Obligations.ResetHasInvariant : Prop := State.reset.Inv

/-! ## Reset -/

/-- The registers of the state right after reset (R38). -/
def Obligations.ResetRegisterValues : Prop :=
  (∀ i : Reg, i.toNat < 14 → State.reset.readReg i = 0#32) ∧ State.reset.sr = 0x0900#16 ∧
  State.reset.ssp = 0#32 ∧ State.reset.sii = 0#32 ∧ State.reset.spc = 0#32 ∧
  State.reset.flagP = false ∧ State.reset.flagI = true ∧ State.reset.flagT = true ∧ State.reset.flagF = false

/-- The reset sequence from any state: registers cleared, I and T set, `pc` loaded from the word at address 0, memory
kept; a vector read that fails halts with `pc` = 0 (R291). Rests on the spec's decision D23 and on logs 7, 8 and 12.
-/
def Obligations.ResetSequenceLoadsVector : Prop :=
  ∀ s : State,
    let cleared : State := { State.reset with
      mem := s.mem, memMap := s.memMap, busTime := s.busTime + 1, failing := s.failing,
      irqPending := s.irqPending, nmiPending := s.nmiPending }
    (accessFails s .read 0#32 .word = false →
      s.performReset = { cleared with pc := cleared.busValue .read 0#32 .word &&& 0xFFFFFFFC#32 }) ∧
    (accessFails s .read 0#32 .word = true → s.performReset = { cleared with sr := 0x1900#16, pc := 0#32 })

/-! ## Registers and flags -/

/-- The sixteen main registers: what a read gives, and what a plain write changes (R20, R30, R31; R23 for `pc`). Rests
on the spec's decisions D15, D20. -/
def Obligations.RegisterWriteThenRead : Prop :=
  ∀ (s : State) (x : Reg) (v : Word),
    (x.toNat < 14 → s.writeReg x v = .ok (s.setGeneral x v) ∧ (s.setGeneral x v).readReg x = v ∧
      ∀ j, j ≠ x → (s.setGeneral x v).readReg j = s.readReg j) ∧
    (x = 14#4 → s.writeReg x v = s.writeSr v ∧ s.readReg x = (s.sr &&& 0x1FC3#16).zeroExtend 32) ∧
    (x = 15#4 → s.readReg x = s.pc ∧
      (v.extractLsb' 0 2 = 0#2 → s.writeReg x v = .ok { s with pc := v }) ∧
      (v.extractLsb' 0 2 ≠ 0#2 → s.writeReg x v = .error .pcAlign))

/-- `WriteSR` in both modes (R32). Rests on the spec's decisions D14, D15. -/
def Obligations.StatusRegisterWrite : Prop :=
  ∀ (s : State) (v : Word),
    let new : Half := v.extractLsb' 0 16 &&& 0x1FC3#16
    (s.flagP = false → s.writeSr v = .ok { s with sr := new }) ∧
    (s.flagP = true → new.extractLsb' 8 5 = s.control → s.writeSr v = .ok { s with sr := new }) ∧
    (s.flagP = true → new.extractLsb' 8 5 ≠ s.control → s.flagS = true → s.writeSr v = .error .srWrite) ∧
    (s.flagP = true → new.extractLsb' 8 5 ≠ s.control → s.flagS = false →
      s.writeSr v = .ok { s with sr := (s.sr &&& 0x1F00#16) ||| (new &&& 0x00FF#16) })

/-- The aliases: registers 12 to 15 are `dsp`, `isp`, `sr` and `pc`; the four condition registers are the halves of r10
and r11, and writing one keeps the other three and every other register (R21, R24). -/
def Obligations.ConditionRegistersAreHalves : Prop :=
  ∀ (s : State) (k : BitVec 2) (v : Half) (u : Word),
    (s.readReg 12#4 = s.dsp ∧ s.readReg 13#4 = s.isp ∧ s.readReg 14#4 = s.srWord ∧ s.readReg 15#4 = s.pc) ∧
    (s.writeReg 12#4 u = .ok { s with dsp := u } ∧ s.writeReg 13#4 u = .ok { s with isp := u } ∧
      s.writeReg 14#4 u = s.writeSr u ∧ s.writeReg 15#4 u = s.writePc u) ∧
    s.readReg 10#4 = s.cc 1#2 ++ s.cc 0#2 ∧ s.readReg 11#4 = s.cc 3#2 ++ s.cc 2#2 ∧
    (s.setCc k v).cc k = v ∧ (∀ j, j ≠ k → (s.setCc k v).cc j = s.cc j) ∧
    (∀ j : Reg, j ≠ 10#4 → j ≠ 11#4 → (s.setCc k v).readReg j = s.readReg j) ∧
    s.setCc k v = { s with r := (s.setCc k v).r }

/-- Flags go to `sr`, or with condition code 1111 to the selected condition register; only the named flags change
(R26, R28). Rests on the spec's decisions D7, D16. -/
def Obligations.FlagUpdateIsRedirected : Prop :=
  ∀ (s : State) (g : Guard) (u : FlagUpdate),
    let t := s.setFlags g u
    (g.cond ≠ .f → FlagsReplaced s.sr t.sr u ∧ t = { s with sr := t.sr }) ∧
    (g.cond = .f → FlagsReplaced (s.cc g.rr) (t.cc g.rr) u ∧ t = { s with r := t.r } ∧
      (∀ k, k ≠ g.rr → t.cc k = s.cc k) ∧ (∀ j : Reg, j ≠ 10#4 → j ≠ 11#4 → t.readReg j = s.readReg j))

/-- The condition test of each code on the flags of the selected condition register, "signed less than" under either
reading of the open parameter (R82, R84; log 4). Rests on the spec's decision D6. -/
def Obligations.ConditionCodesTest : Prop :=
  ∀ (s : State) (rr : BitVec 2),
    let z := (s.cc rr).getLsbD 0
    let c := (s.cc rr).getLsbD 1
    let v := (s.cc rr).getLsbD 6
    let n := (s.cc rr).getLsbD 7
    let holds := fun code => s.condHolds ⟨code, rr⟩
    (holds .al = true ∧ holds .nv = false ∧ holds .f = true) ∧
    (holds .vs = v ∧ holds .vc = !v) ∧ (holds .cs = c ∧ holds .cc = !c) ∧ (holds .eq = z ∧ holds .ne = !z) ∧
    (holds .hi = (c && !z) ∧ holds .ls = !(c && !z)) ∧
    (Config.signedCond = .nOnly → holds .mi = n ∧ holds .pl = (!n) ∧ holds .gt = (!n && !z) ∧ holds .le = (n || z)) ∧
    (Config.signedCond = .nXorV → holds .mi = (n != v) ∧ holds .pl = (n == v) ∧ holds .gt = (n == v && !z) ∧
      holds .le = (n != v || z))

/-- A standard instruction whose condition is false changes nothing and takes no trap; the unconditional code with
`rr` not zero takes trap 2 (R83, R87 c). Rests on the spec's decisions D17, D18. -/
def Obligations.FalseConditionSkips : Prop :=
  ∀ (s : State) (i : Instr) (g : Guard), i.guard = some g →
    (g.wellFormed = true → s.condHolds g = false → exec i s = .next s) ∧
    (g.cond = .al → g.rr ≠ 0#2 → exec i s = .next (s.trapEntry .invalidOpcode))

/-- How each immediate is extended, at the spec's defaults (R80, R93; log 3). Rests on the spec's decisions D3, D4,
D5. -/
def Obligations.ImmediateExtensions : Prop :=
  (∀ n, (immAlu8 n).toNat = n.toNat) ∧ (∀ n, (immAlu12 n).toNat = n.toNat) ∧ (∀ n, (immMem n).toNat = n.toNat) ∧
  (∀ n, (immBranch n).toInt = n.toInt * 4) ∧ (∀ n, (immCall n).toInt = n.toInt * 4) ∧
  (∀ n, (compactN8 n).toNat = n.toNat) ∧ (∀ n, (compactN12 n).toNat = n.toNat) ∧
  (∀ n, (compactN16 n).toNat = n.toNat)

/-! ## Results -/

/-- The sum and its four flags, carry and overflow against the exact sums (R101, R108). Rests on the spec's decision
D8. -/
def Obligations.AdditionResultAndFlags : Prop :=
  ∀ a b : Word,
    let o := addResult a b
    o.value.toNat = (a.toNat + b.toNat) % 2 ^ 32 ∧
    o.flags.z = some (decide (o.value = 0#32)) ∧
    o.flags.c = some (decide (2 ^ 32 ≤ a.toNat + b.toNat)) ∧
    o.flags.v = some (decide (o.value.toInt ≠ a.toInt + b.toInt)) ∧
    o.flags.n = some (decide (o.value.toInt < 0))

/-- The difference and its four flags; C is "no borrow" (R102, R109). Rests on the spec's decision D8. -/
def Obligations.SubtractionResultAndFlags : Prop :=
  ∀ a b : Word,
    let o := subResult a b
    (o.value.toNat : Int) = ((a.toNat : Int) - b.toNat) % 2 ^ 32 ∧
    o.flags.z = some (decide (a = b)) ∧
    o.flags.c = some (decide (b.toNat ≤ a.toNat)) ∧
    o.flags.v = some (decide (o.value.toInt ≠ a.toInt - b.toInt)) ∧
    o.flags.n = some (decide (o.value.toInt < 0))

/-- The two words of a product are the exact 64-bit product, and Z, C and N are read from it; V is not touched (R103;
log 5 for the flags). Rests on the spec's decision D9. -/
def Obligations.ProductResultAndFlags : Prop :=
  ∀ a b : Word,
    (let o := umulResult a b
     let p := a.toNat * b.toNat
     o.first.toNat + 2 ^ 32 * o.second.toNat = p ∧
     o.flags = { z := some (decide (p = 0)), c := some (decide (2 ^ 32 ≤ p)), n := some (decide (2 ^ 63 ≤ p)) }) ∧
    (let o := smulResult a b
     let p := a.toInt * b.toInt
     (o.first.toNat : Int) + 2 ^ 32 * o.second.toInt = p ∧
     o.flags = { z := some (decide (p = 0)), c := some (decide (p < -2 ^ 31 ∨ 2 ^ 31 ≤ p)), n := some (decide (p < 0)) })

/-- Quotient and remainder by a nonzero divisor: the unsigned pair, the signed pair rounding toward zero, and the one
overflow (R104; log 5). Rests on the spec's decision D10. -/
def Obligations.QuotientResultAndFlags : Prop :=
  ∀ a b : Word, b ≠ 0#32 →
    (let o := udivResult a b
     a.toNat = o.first.toNat * b.toNat + o.second.toNat ∧ o.second.toNat < b.toNat ∧
     o.flags = { z := some (decide (o.first = 0#32)), c := some false, n := some o.first.msb }) ∧
    (let o := sdivResult a b
     o.flags = { z := some (decide (o.first = 0#32)), c := some false, n := some o.first.msb } ∧
     (a = 0x80000000#32 ∧ b = 0xFFFFFFFF#32 → o.first = 0x80000000#32 ∧ o.second = 0#32) ∧
     (¬(a = 0x80000000#32 ∧ b = 0xFFFFFFFF#32) →
       a.toInt = o.first.toInt * b.toInt + o.second.toInt ∧ o.second.toInt.natAbs < b.toInt.natAbs ∧
       (o.second.toInt = 0 ∨ (o.second.toInt < 0 ↔ a.toInt < 0))))

/-- The shifts and rotates by the count mod 32: result, the bit shifted out or wrapped as carry (0 for a count of 0),
N = 0 for `shr`, V untouched (R106; log 5). Rests on the spec's decision D11. -/
def Obligations.ShiftAndRotateResults : Prop :=
  ∀ a b : Word,
    let s := b.toNat % 32
    let flags : Word → Bool → Bool → FlagUpdate := fun r carry n =>
      { z := some (decide (r = 0#32)), c := some (decide (s ≠ 0) && carry), n := some n }
    (let o := shlResult a b
     o.value.toNat = a.toNat * 2 ^ s % 2 ^ 32 ∧ o.flags = flags o.value (a.getLsbD (32 - s)) o.value.msb) ∧
    (let o := shrResult a b
     o.value.toNat = a.toNat / 2 ^ s ∧ o.flags = flags o.value (a.getLsbD (s - 1)) false) ∧
    (let o := sarResult a b
     o.value.toInt = a.toInt / 2 ^ s ∧ o.flags = flags o.value (a.getLsbD (s - 1)) o.value.msb) ∧
    (let o := rotlResult a b
     (∀ i < 32, o.value.getLsbD ((i + s) % 32) = a.getLsbD i) ∧
     o.flags = flags o.value (a.getLsbD (32 - s)) o.value.msb) ∧
    (let o := rotrResult a b
     (∀ i < 32, o.value.getLsbD i = a.getLsbD ((i + s) % 32)) ∧
     o.flags = flags o.value (a.getLsbD (s - 1)) o.value.msb)

/-- The logic operations and the extensions: result, Z and N of it, C and V untouched (R105, R114 to R116, R182, R184
to R187). Rests on the spec's decisions D7, D12. -/
def Obligations.LogicAndExtensionResults : Prop :=
  ∀ a b : Word,
    (∀ i < 32, (andResult a b).value.getLsbD i = (a.getLsbD i && b.getLsbD i) ∧
      (orResult a b).value.getLsbD i = (a.getLsbD i || b.getLsbD i) ∧
      (xorResult a b).value.getLsbD i = (a.getLsbD i != b.getLsbD i) ∧
      (notResult a).value.getLsbD i = !a.getLsbD i) ∧
    ((zxbResult a).value.toNat = a.toNat % 2 ^ 8 ∧ (zxwResult a).value.toNat = a.toNat % 2 ^ 16) ∧
    ((sxbResult a).value.toInt = (a.toInt).bmod (2 ^ 8) ∧ (sxwResult a).value.toInt = (a.toInt).bmod (2 ^ 16)) ∧
    (∀ o ∈ [andResult a b, orResult a b, xorResult a b, notResult a, sxbResult a, sxwResult a, zxbResult a,
        zxwResult a],
      o.flags = { z := some (decide (o.value = 0#32)), n := some (decide (o.value.toInt < 0)) })

/-! ## Arithmetic, logic and moves: what exec answers -/

/-- A register form of the ALU block, or its compact form, with a destination r0 to r13: the result is written, then
the flags, and nothing else changes (R100, R108, R109, R114 to R121, R232). Rests on the spec's decisions D7 to D11.
-/
def Obligations.AluRegisterCompletes : Prop :=
  ∀ (s : State) (i : Instr) (g : Guard) (x : Reg) (o : AluOut), AluRegisterRow s i g x o →
    g.wellFormed = true → s.condHolds g = true → x.toNat < 14 →
    exec i s = .next ((s.setGeneral x o.value).setFlags g o.flags)

/-- The same for the immediate forms (R122, R123, R128 to R135, R192, R193, R233, R235). Rests on the spec's decisions
D3, D5, D7 to D11. -/
def Obligations.AluImmediateCompletes : Prop :=
  ∀ (s : State) (i : Instr) (g : Guard) (x : Reg) (o : AluOut), AluImmediateRow s i g x o →
    g.wellFormed = true → s.condHolds g = true → x.toNat < 14 →
    exec i s = .next ((s.setGeneral x o.value).setFlags g o.flags)

/-- A multiplication or a division by a nonzero divisor with a destination r0 to r13: the first result to the
destination, then the second to r10, then the flags; a zero divisor takes trap 4, whatever the destination (R103,
R104, R107, R110 to R113, R124 to R127, R232, R233). Rests on the spec's decisions D3, D5, D9, D10, D13, D26. -/
def Obligations.MultiplyAndDivideComplete : Prop :=
  ∀ (s : State) (i : Instr) (g : Guard) (x : Reg) (o : WideOut), g.wellFormed = true → s.condHolds g = true →
    (MultiplyRow s i g x o → x.toNat < 14 →
      exec i s = .next (((s.setGeneral x o.first).setGeneral 10#4 o.second).setFlags g o.flags)) ∧
    (∀ b, DivideRow s i g x b o → b ≠ 0#32 → x.toNat < 14 →
      exec i s = .next (((s.setGeneral x o.first).setGeneral 10#4 o.second).setFlags g o.flags)) ∧
    (DivideRow s i g x 0#32 o → exec i s = .next (s.trapEntry .math))

/-- The one-source operations and the moves with a destination r0 to r13, `lil` and `lih` among them, and `cmp`, which
writes no register (R180, R182 to R191, R210, R211, R234, R238). Rests on the spec's decisions D5, D7, D8, D12, D14.
-/
def Obligations.UnaryMoveAndCompareComplete : Prop :=
  ∀ (s : State) (i : Instr) (g : Guard), g.wellFormed = true → s.condHolds g = true →
    (∀ x o, UnaryRow s i g x o → x.toNat < 14 → exec i s = .next ((s.setGeneral x o.value).setFlags g o.flags)) ∧
    (∀ x v, MoveRow s i g x v → x.toNat < 14 → exec i s = .next (s.setGeneral x v)) ∧
    (∀ x y, CompareRow i g x y →
      exec i s = .next (s.setFlags g (subResult (s.readReg x) (s.readReg y)).flags))

/-- `swp` exchanges two registers r0 to r13; with register 14 or 15 each write is the ordinary register write, and a
trap in either undoes both (R181, R196, R234). Where one is 14 and the other 15 and the write of `sr` sets P in system
mode, the switch at the end parks the `pc` that the `swp` has written in `spc`: the model's choice, not the spec's
(log 21: R32 and R252 say the address of the next word). Rests on the spec's decisions D13, D20, D32. -/
def Obligations.SwapCompletes : Prop :=
  ∀ (s : State) (i : Instr) (g : Guard) (x y : Reg), SwapRow i g x y → g.wellFormed = true → s.condHolds g = true →
    (x.toNat < 14 → y.toNat < 14 →
      exec i s = .next ((s.setGeneral x (s.readReg y)).setGeneral y (s.readReg x))) ∧
    exec i s = .next (s.conclude ((s.writeReg x (s.readReg y)).bind fun t => t.writeReg y (s.readReg x)))

/-- Destination 15 of every form with one result: an aligned result becomes `pc`, a misaligned one takes trap 7 with
nothing written (R23, R107 a, R161, R196, R264). Rests on the spec's decision D20. -/
def Obligations.ResultToProgramCounter : Prop :=
  ∀ (s : State) (i : Instr) (g : Guard) (x : Reg) (v : Word) (post : State → State), ResultRow s i g x v post →
    g.wellFormed = true → s.condHolds g = true → x = 15#4 →
    (v.extractLsb' 0 2 = 0#2 → exec i s = .next (post { s with pc := v })) ∧
    (v.extractLsb' 0 2 ≠ 0#2 → exec i s = .next (s.trapEntry .pcAlign))

/-- Destination 14 of every form with one result. In system mode `sr` takes the implemented bits, then the flags; a
set bit 9 switches to protected mode at the end, or takes trap 7 when `spc` is misaligned. In protected mode bits 12:8
stay and the low byte is taken; with S set an attempt to change bits 12:8 takes trap 6 (R32, R107 b, R252 a, R269).
Rests on the spec's decisions D14, D15, D32. -/
def Obligations.ResultToStatusRegister : Prop :=
  ∀ (s : State) (i : Instr) (g : Guard) (x : Reg) (v : Word) (post : State → State), ResultRow s i g x v post →
    g.wellFormed = true → s.condHolds g = true → x = 14#4 →
    (s.flagP = false →
      let t := post { s with sr := v.extractLsb' 0 16 &&& 0x1FC3#16 }
      (v.getLsbD 9 = false → exec i s = .next t) ∧
      (v.getLsbD 9 = true → s.spc.extractLsb' 0 2 = 0#2 →
        exec i s = .next { t with isp := s.ssp, ssp := s.isp, pc := s.spc, spc := s.pc }) ∧
      (v.getLsbD 9 = true → s.spc.extractLsb' 0 2 ≠ 0#2 → exec i s = .next (s.trapEntry .pcAlign))) ∧
    (s.flagP = true →
      let t := post { s with sr := (s.sr &&& 0x1F00#16) ||| (v.extractLsb' 0 16 &&& 0x00C3#16) }
      (v.extractLsb' 8 5 = s.control → exec i s = .next t) ∧
      (v.extractLsb' 8 5 ≠ s.control → s.flagS = false → exec i s = .next t) ∧
      (v.extractLsb' 8 5 ≠ s.control → s.flagS = true → exec i s = .next (s.trapEntry .srWrite)))

/-- The frame of every form with one result, executed or skipped, when it neither traps nor switches mode: every byte
of memory, every system register, every input, the model's counter of time, the registers other than the destination
and r10 and r11, and the bits of `sr` other than N, V, C, Z are as before (R26, R31, R100, R160). Rests on the spec's
decisions D7, D20. -/
def Obligations.ResultFormsFrame : Prop :=
  ∀ (s t : State) (i : Instr) (g : Guard) (x : Reg) (v : Word) (post : State → State), ResultRow s i g x v post →
    g.wellFormed = true → (x = 14#4 → s.flagP = false → v.getLsbD 9 = false) → exec i s = .next t →
    (∃ k, t = s.trapEntry k) ∨
    ((∀ a, readByte t.mem a = readByte s.mem a) ∧ t.ssp = s.ssp ∧ t.sii = s.sii ∧ t.spc = s.spc ∧
      s.SameInputs t ∧ t.busTime = s.busTime ∧ t.latch = s.latch ∧
      (∀ j : Reg, j ≠ x → j ≠ 10#4 → j ≠ 11#4 → j ≠ 14#4 → t.readReg j = s.readReg j) ∧
      (x ≠ 14#4 → ∀ b, b ∉ [0, 1, 6, 7] → t.sr.getLsbD b = s.sr.getLsbD b))

/-- `smov` in both directions: in system mode it reads or writes the named system register, and an unnamed one takes
trap 2; in protected mode it takes trap 3 whatever the operands (R194, R195, R235, R275). Rests on the spec's
decisions D17, D20, D26, D32. -/
def Obligations.SystemMovesComplete : Prop :=
  ∀ (s : State) (i : Instr) (g : Guard) (x y : Reg), g.wellFormed = true → s.condHolds g = true →
    (SystemWriteRow i g x y →
      (s.flagP = true → exec i s = .next (s.trapEntry .protection)) ∧
      (s.flagP = false → x.toNat < 13 → exec i s = .next (s.trapEntry .invalidOpcode)) ∧
      (s.flagP = false → x = 13#4 → exec i s = .next { s with ssp := s.readReg y }) ∧
      (s.flagP = false → x = 14#4 → exec i s = .next { s with sii := s.readReg y &&& 0xFFFFFFFC#32 }) ∧
      (s.flagP = false → x = 15#4 → exec i s = .next { s with spc := s.readReg y })) ∧
    (SystemReadRow i g x y →
      (s.flagP = true → exec i s = .next (s.trapEntry .protection)) ∧
      (s.flagP = false → y.toNat < 13 → exec i s = .next (s.trapEntry .invalidOpcode)) ∧
      (s.flagP = false → 13 ≤ y.toNat →
        let v := if y = 13#4 then s.ssp else if y = 14#4 then s.sii &&& 0xFFFFFFFC#32 else s.spc
        (x.toNat < 14 → exec i s = .next (s.setGeneral x v)) ∧
        exec i s = .next (s.conclude (s.writeReg x v))))

/-! ## Loads and stores -/

/-- Bytes stored are the bytes read back, bytes elsewhere stay, and memory stays canonical; so for `MemWrite` and
`MemRead` where the address holds memory (R52, R55, R56). Where it holds a device, the read gives some value of the
width of the access, a free one in the model (log 8). Rests on the spec's decisions D1, D2, D30 and on log 8. -/
def Obligations.StoredBytesReadBack : Prop :=
  (∀ (m : Memory) (a : Word) (w : Width) (v : Word), m.wf = true →
    let after := storeBytes m a w v
    after.wf = true ∧ StoredAt m after a w v ∧
    loadBytes after a w = (match w with
      | .byte => (v.extractLsb' 0 8).zeroExtend 32
      | .half => (v.extractLsb' 0 16).zeroExtend 32
      | .word => v)) ∧
  (∀ (s : State) (a : Word) (w : Width) (v : Word), s.mem.wf = true → s.CanAccess .write a w → s.CanAccess .read a w →
    ∃ t, memWrite s a w v = .ok t ∧ t = { s with mem := t.mem } ∧ StoredAt s.mem t.mem a w v ∧
      ∃ u, memRead t .read a w = .ok u ∧ u.toNat < 2 ^ (8 * widthBytes w) ∧
        (s.isDevice a w = false → u.toNat = v.toNat % 2 ^ (8 * widthBytes w)))

/-- A load without base update, with a destination r0 to r13: the bytes at the address (at a device, its free value),
a narrow value merged into the low bits; trap 8 for a misaligned address, then trap 9 for a failing access (R160 to
R162, R166, R170, R174 to R176, R237). Rests on the spec's decisions D1 to D3, D14, D20, D26, D37 and on log 8. -/
def Obligations.LoadsComplete : Prop :=
  ∀ (s : State) (i : Instr) (g : Guard) (x : Reg) (w : Width) (a : Word), LoadRow s i g x w a →
    g.wellFormed = true → s.condHolds g = true →
    let m := s.busValue .read a w
    let old := s.readReg x
    let v : Word := match w with
      | .byte => old.extractLsb' 8 24 ++ m.extractLsb' 0 8
      | .half => old.extractLsb' 16 16 ++ m.extractLsb' 0 16
      | .word => m
    (x.toNat < 14 → s.CanAccess .read a w → exec i s = .next (s.setGeneral x v)) ∧
    (misaligned a w = true → exec i s = .next (s.trapEntry .align)) ∧
    (misaligned a w = false → accessFails s .read a w = true → exec i s = .next (s.trapEntry .access))

/-- A load that steps its base, destination and base r0 to r13: the listing's statements in their order, so that the
base's step is seen when it is also the destination; a trap undoes the step (R160, R161, R163 to R165, R167 to R169,
R171 to R173, R237). Rests on the spec's decisions D13, D14, D20, D26, D37 and on log 8. -/
def Obligations.UpdatingLoadsComplete : Prop :=
  ∀ (s : State) (i : Instr) (g : Guard) (x y : Reg) (w : Width) (u : Update) (off : Word),
    LoadUpdateRow i g x y w u off → g.wellFormed = true → s.condHolds g = true → x.toNat < 14 → y.toNat < 14 →
    let k := widthStep w
    let base := if u = .preDec then s.setGeneral y (s.readReg y - k) else s
    let a := base.readReg y + off
    let loaded := base.setGeneral x (mergeLoad w (base.readReg x) (s.busValue .read a w))
    let t := match u with
      | .postInc => loaded.setGeneral y (loaded.readReg y + k)
      | .postDec => loaded.setGeneral y (loaded.readReg y - k)
      | _ => loaded
    (s.CanAccess .read a w → exec i s = .next t) ∧
    (misaligned a w = true → exec i s = .next (s.trapEntry .align)) ∧
    (misaligned a w = false → accessFails s .read a w = true → exec i s = .next (s.trapEntry .access))

/-- A store without base update writes the low bytes of its value at its address and nothing else; trap 8 for a
misaligned address, then trap 9 (R140 to R142, R146, R150, R154 to R156, R236). Rests on the spec's decisions D1 to
D3, D20, D26, D37. -/
def Obligations.StoresComplete : Prop :=
  ∀ (s : State) (i : Instr) (g : Guard) (w : Width) (a v : Word), StoreRow s i g w a v →
    g.wellFormed = true → s.condHolds g = true → s.mem.wf = true →
    (s.CanAccess .write a w → ∃ t, exec i s = .next t ∧ StoredAt s.mem t.mem a w v ∧ t = { s with mem := t.mem }) ∧
    (misaligned a w = true → exec i s = .next (s.trapEntry .align)) ∧
    (misaligned a w = false → accessFails s .write a w = true → exec i s = .next (s.trapEntry .access))

/-- A store that steps a base r0 to r13: a pre-decrement is seen by the address and by the value, a post-step by
neither; a trap undoes the step (R140, R141, R143 to R145, R147 to R149, R151 to R153, R236). Rests on the spec's
decisions D13, D20, D26, D37. -/
def Obligations.UpdatingStoresComplete : Prop :=
  ∀ (s : State) (i : Instr) (g : Guard) (x y : Reg) (w : Width) (u : Update) (off : Word),
    StoreUpdateRow i g x y w u off → g.wellFormed = true → s.condHolds g = true → s.mem.wf = true → x.toNat < 14 →
    let k := widthStep w
    let stepped := s.setGeneral x (if u = .postInc then s.readReg x + k else s.readReg x - k)
    let base := if u = .preDec then stepped else s
    let a := base.readReg x + off
    (s.CanAccess .write a w →
      ∃ t, exec i s = .next t ∧ StoredAt s.mem t.mem a w (base.readReg y) ∧ t = { stepped with mem := t.mem }) ∧
    (misaligned a w = true → exec i s = .next (s.trapEntry .align)) ∧
    (misaligned a w = false → accessFails s .write a w = true → exec i s = .next (s.trapEntry .access))

/-- `stwxi` and `lwxi` step their index register by 4 (R157, R177, R236, R237). Rests on the spec's decision D13 and
on log 8. -/
def Obligations.IndexStepsComplete : Prop :=
  ∀ (s : State) (i : Instr) (g : Guard) (x y z : Reg), g.wellFormed = true → s.condHolds g = true → s.mem.wf = true →
    (StoreIndexRow i g x y z → z.toNat < 14 → s.CanAccess .write (s.readReg x + s.readReg z) .word →
      ∃ t, exec i s = .next t ∧ StoredAt s.mem t.mem (s.readReg x + s.readReg z) .word (s.readReg y) ∧
        t = { s.setGeneral z (s.readReg z + 4#32) with mem := t.mem }) ∧
    (LoadIndexRow i g x y z → x.toNat < 14 → z.toNat < 14 → s.CanAccess .read (s.readReg y + s.readReg z) .word →
      let loaded := s.setGeneral x (s.busValue .read (s.readReg y + s.readReg z) .word)
      exec i s = .next (loaded.setGeneral z (loaded.readReg z + 4#32)))

/-- The stepping forms with any registers, `sr` and `pc` among them: each statement of the listing through the
ordinary register write and memory access, the first trap undoing all (R140, R141 e f i, R160, R161, R157, R177). Two
points are the model's choice, not the spec's. Where a load's destination and its stepped register are both 14, one
instruction writes `sr` twice: the second write comes after the first, under the mode that the first has set, with one
switch at the end (log 16: R32 does not treat the case). Where one is 14 and the other 15 and P is set, the switch
parks the `pc` that the load has written in `spc` (log 21: R32 and R252 say the address of the next word). Rests on
the spec's decisions D13, D14, D20, D32. -/
def Obligations.SteppingFormsWithAnyRegisters : Prop :=
  ∀ (s : State) (i : Instr) (g : Guard) (x y : Reg), g.wellFormed = true → s.condHolds g = true →
    (∀ w u off, StoreUpdateRow i g x y w u off → exec i s = .next (s.conclude (do
      let k := widthStep w
      let s1 ← if u = .preDec then s.writeReg x (s.readReg x - k) else .ok s
      let s2 ← memWrite s1 (s1.readReg x + off) w (s1.readReg y)
      match u with
        | .postInc => s2.writeReg x (s2.readReg x + k)
        | .postDec => s2.writeReg x (s2.readReg x - k)
        | _ => .ok s2))) ∧
    (∀ w u off, LoadUpdateRow i g x y w u off → exec i s = .next (s.conclude (do
      let k := widthStep w
      let s1 ← if u = .preDec then s.writeReg y (s.readReg y - k) else .ok s
      let v ← memRead s1 .read (s1.readReg y + off) w
      let s2 ← s1.writeReg x (mergeLoad w (s1.readReg x) v)
      match u with
        | .postInc => s2.writeReg y (s2.readReg y + k)
        | .postDec => s2.writeReg y (s2.readReg y - k)
        | _ => .ok s2))) ∧
    (∀ z, StoreIndexRow i g x y z → exec i s = .next (s.conclude (do
      let s1 ← memWrite s (s.readReg x + s.readReg z) .word (s.readReg y)
      s1.writeReg z (s1.readReg z + 4#32)))) ∧
    (∀ z, LoadIndexRow i g x y z → exec i s = .next (s.conclude (do
      let v ← memRead s .read (s.readReg y + s.readReg z) .word
      let s1 ← s.writeReg x v
      s1.writeReg z (s1.readReg z + 4#32))))

/-! ## Transfers of control -/

/-- The branches and `last` set `pc` and nothing else, to an aligned target (R200, R201, R203, R238). That the
immediates of `ba` and `br` are signed is the source's word, not D4; how the 8-bit immediate of a compact form fills
the 16-bit field is a default of the spec (R93; log 3). Rests on the spec's decision D5 and on log 3. -/
def Obligations.BranchesComplete : Prop :=
  ∀ (s : State) (i : Instr) (g : Guard) (target : Word), BranchRow s i g target →
    g.wellFormed = true → s.condHolds g = true → aligned4 s.pc = true →
    exec i s = .next { s with pc := target } ∧ aligned4 target = true

/-- `jf` joins its immediate to the low half of the next word; trap 7 when the immediate has a low bit set, trap 9
when the read fails (R202, R238). Rests on the spec's decision D39 and on log 8. -/
def Obligations.JumpFarCompletes : Prop :=
  ∀ (s : State) (i : Instr) (g : Guard) (n : Half), JumpFarRow i g n →
    g.wellFormed = true → s.condHolds g = true → aligned4 s.pc = true →
    (accessFails s .read s.pc .word = false → n.extractLsb' 0 2 = 0#2 →
      exec i s = .next { s with pc := (s.busValue .read s.pc .word).extractLsb' 0 16 ++ n }) ∧
    (accessFails s .read s.pc .word = false → n.extractLsb' 0 2 ≠ 0#2 → exec i s = .next (s.trapEntry .pcAlign)) ∧
    (accessFails s .read s.pc .word = true → exec i s = .next (s.trapEntry .access))

/-- The calls push `pc`, then `dsp`, and go to the target; a misaligned `isp` takes trap 8, a failing push trap 9, a
misaligned target trap 7, each with nothing written (R204, R205, R212, R213, R238). Rests on the spec's decisions D4,
D13, D20. -/
def Obligations.CallsComplete : Prop :=
  ∀ (s : State) (i : Instr) (g : Guard) (target : Word), CallRow s i g target →
    g.wellFormed = true → s.condHolds g = true → s.mem.wf = true →
    (s.CanPushTwo s.isp → aligned4 target = true →
      ∃ t, exec i s = .next t ∧ PushedTwo s.mem t.mem s.isp s.pc s.dsp ∧
        t = { s with isp := s.isp - 8#32, pc := target, mem := t.mem }) ∧
    (s.CanPushTwo s.isp → aligned4 target = false → exec i s = .next (s.trapEntry .pcAlign)) ∧
    (misaligned s.isp .word = true → exec i s = .next (s.trapEntry .align)) ∧
    (misaligned s.isp .word = false → ¬ s.CanPushTwo s.isp → exec i s = .next (s.trapEntry .access))

/-- The fast calls save `dsp` in r8 and `pc` in r9 and go to the target, a register target read after the two are
written; `fret` goes back; a misaligned target takes trap 7 with nothing written (R206, R207, R214 to R216, R221,
R238). Rests on the spec's decisions D4, D13, D20. -/
def Obligations.FastCallsAndReturnComplete : Prop :=
  ∀ (s : State) (g : Guard), g.wellFormed = true → s.condHolds g = true →
    (∀ i target, FastCallRow s i g target →
      (aligned4 target = true →
        exec i s = .next { (s.setGeneral 8#4 s.dsp).setGeneral 9#4 s.pc with pc := target }) ∧
      (aligned4 target = false → exec i s = .next (s.trapEntry .pcAlign))) ∧
    (aligned4 (s.readReg 9#4) = true → exec (.fret g) s = .next { s with dsp := s.readReg 8#4, pc := s.readReg 9#4 }) ∧
    (aligned4 (s.readReg 9#4) = false → exec (.fret g) s = .next (s.trapEntry .pcAlign))

/-- `ret` pops `dsp`, then `pc`; traps 8, 9 and 7 undo it (R220). Rests on the spec's decision D20 and on log 8. -/
def Obligations.ReturnCompletes : Prop :=
  ∀ (s : State) (g : Guard), g.wellFormed = true → s.condHolds g = true →
    let p := s.busValue .read (s.isp + 4#32) .word
    let reads := accessFails s .read s.isp .word = false ∧ accessFails s .read (s.isp + 4#32) .word = false
    (misaligned s.isp .word = false → reads → aligned4 p = true →
      exec (.ret g) s = .next { s with dsp := s.busValue .read s.isp .word, isp := s.isp + 8#32, pc := p }) ∧
    (misaligned s.isp .word = false → reads → aligned4 p = false → exec (.ret g) s = .next (s.trapEntry .pcAlign)) ∧
    (misaligned s.isp .word = true → exec (.ret g) s = .next (s.trapEntry .align)) ∧
    (misaligned s.isp .word = false → ¬ reads → exec (.ret g) s = .next (s.trapEntry .access))

/-- `ret` undoes `call`: executed in the state a call left, with the stack in memory, it restores `isp` and `dsp` and
continues at the return address (R204, R220). Rests on the spec's decision D20. -/
def Obligations.ReturnUndoesCall : Prop :=
  ∀ (s t : State) (i : Instr) (g : Guard) (target : Word), CallRow s i g target → g.wellFormed = true →
    s.condHolds g = true → s.Inv → s.CanPushTwo s.isp → aligned4 target = true → exec i s = .next t →
    accessFails t .read t.isp .word = false → accessFails t .read (t.isp + 4#32) .word = false →
    t.isDevice t.isp .word = false → t.isDevice (t.isp + 4#32) .word = false →
    exec (.ret .always) t = .next { s with mem := t.mem }

/-- `int` enters through the low 8 bits of its value while I is clear, in either mode, and takes trap 5 while I is set
(R208, R209, R238, R262). -/
def Obligations.SoftwareInterruptCompletes : Prop :=
  ∀ (s : State) (i : Instr) (g : Guard) (v : Word), SoftwareInterruptRow s i g v →
    g.wellFormed = true → s.condHolds g = true →
    (s.flagI = false → exec i s = .next (s.interruptEntry (v.extractLsb' 0 8))) ∧
    (s.flagI = true → exec i s = .next (s.trapEntry .softwareInt))

/-! ## System instructions -/

/-- `sleep` sets F, `brk` does nothing in system mode; in protected mode they take trap 3 and trap 1, and `rfi` takes
trap 3 (R222, R223, R224, R275). Rests on the spec's decision D31. -/
def Obligations.SleepAndBreakComplete : Prop :=
  ∀ (s : State) (g : Guard), g.wellFormed = true → s.condHolds g = true →
    (s.flagP = false → exec (.sleep g) s = .next { s with sr := s.sr ||| 0x1000#16 } ∧ exec (.brk g) s = .next s) ∧
    (s.flagP = true → exec (.sleep g) s = .next (s.trapEntry .protection) ∧
      exec (.brk g) s = .next (s.trapEntry .breakTrap) ∧ exec (.rfi g) s = .next (s.trapEntry .protection))

/-- `rfi` in system mode: pops `sr`, then `pc`, and switches to protected mode when the popped P is set; traps 8, 9
and 7 undo it (R223, R252 b, R273). Rests on the spec's decisions D15, D20, D32 and on log 8. -/
def Obligations.ReturnFromInterruptCompletes : Prop :=
  ∀ (s : State) (g : Guard), g.wellFormed = true → s.condHolds g = true → s.flagP = false →
    let saved := s.busValue .read s.isp .word
    let p := s.busValue .read (s.isp + 4#32) .word
    let new : Half := saved.extractLsb' 0 16 &&& 0x1FC3#16
    let reads := accessFails s .read s.isp .word = false ∧ accessFails s .read (s.isp + 4#32) .word = false
    (misaligned s.isp .word = false → reads → aligned4 p = true → saved.getLsbD 9 = false →
      exec (.rfi g) s = .next { s with isp := s.isp + 8#32, sr := new, pc := p }) ∧
    (misaligned s.isp .word = false → reads → aligned4 p = true → saved.getLsbD 9 = true → aligned4 s.spc = true →
      exec (.rfi g) s = .next { s with isp := s.ssp, ssp := s.isp + 8#32, sr := new, pc := s.spc, spc := p }) ∧
    (misaligned s.isp .word = false → reads → aligned4 p = true → saved.getLsbD 9 = true → aligned4 s.spc = false →
      exec (.rfi g) s = .next (s.trapEntry .pcAlign)) ∧
    (misaligned s.isp .word = false → reads → aligned4 p = false → exec (.rfi g) s = .next (s.trapEntry .pcAlign)) ∧
    (misaligned s.isp .word = true → exec (.rfi g) s = .next (s.trapEntry .align)) ∧
    (misaligned s.isp .word = false → ¬ reads → exec (.rfi g) s = .next (s.trapEntry .access))

/-- A reserved opcode, standard or compact, takes trap 2 in either mode: that entry is its whole effect (R86, R225,
R239, R270 a c). -/
def Obligations.ReservedOpcodesTrap : Prop :=
  ∀ (s : State) (i : Instr) (g : Guard), ReservedRow i g → g.wellFormed = true → s.condHolds g = true →
    exec i s = .next (s.trapEntry .invalidOpcode)

/-! ## Traps and interrupts -/

/-- Trap entry: the switch to system mode if needed, `pc` and then `sr` pushed on the system stack, T set, `pc` from
the vector table; everything else as before (R252 c, R253, R254, R255). The nine traps have the indices 1 to 9 of the
index table (R258). Rests on the spec's decisions D20, D21, D41 and on logs 8 and 14. -/
def Obligations.TrapEntryPushesAndVectors : Prop :=
  (trapIndex .breakTrap = 1#8 ∧ trapIndex .invalidOpcode = 2#8 ∧ trapIndex .protection = 3#8 ∧
    trapIndex .math = 4#8 ∧ trapIndex .softwareInt = 5#8 ∧ trapIndex .srWrite = 6#8 ∧ trapIndex .pcAlign = 7#8 ∧
    trapIndex .align = 8#8 ∧ trapIndex .access = 9#8) ∧
  ∀ (s : State) (k : Trap), s.mem.wf = true → s.CanEnter s.systemStack (trapIndex k) →
    let t := s.trapEntry k
    let handler := t.busValue .read (s.vectorAddress (trapIndex k)) .word &&& 0xFFFFFFFC#32
    (s.flagP = false → s.flagT = false → PushedTwo s.mem t.mem s.isp s.pc ((s.sr &&& 0x1FC3#16).zeroExtend 32) ∧
      t = { s with isp := s.isp - 8#32, sr := s.sr ||| 0x0800#16, pc := handler, mem := t.mem,
                   busTime := s.busTime + 1, latch := none }) ∧
    (s.flagP = true → PushedTwo s.mem t.mem s.ssp s.spc ((s.sr &&& 0x1DC3#16).zeroExtend 32) ∧
      t = { s with isp := s.ssp - 8#32, ssp := s.isp, spc := s.pc, sr := (s.sr &&& ~~~0x0200#16) ||| 0x0800#16,
                   pc := handler, mem := t.mem,
                   busTime := s.busTime + 1, latch := none })

/-- A trap with T set in system mode sets F and does nothing else; so does a trap or an interrupt whose entry fails
(R257, R261). The pending half of a pair is dropped (log 14). Rests on the spec's decisions D22, D33. -/
def Obligations.FailedEntryHalts : Prop :=
  ∀ s : State,
    let halted : State := { s with sr := s.sr ||| 0x1000#16, latch := none }
    (∀ k, s.flagT = true → s.flagP = false → s.trapEntry k = halted) ∧
    (∀ k, ¬(s.flagT = true ∧ s.flagP = false) → ¬ s.CanEnter s.systemStack (trapIndex k) → s.trapEntry k = halted) ∧
    (∀ k, ¬ s.CanEnter s.systemStack k → s.interruptEntry k = halted)

/-- Interrupt entry: the switch to system mode if needed, F cleared, `pc` and then `sr` pushed, I set, `pc` from the
vector table; T is not looked at (R252 d, R253, R254, R260). Rests on the spec's decisions D21, D41 and on log 8. -/
def Obligations.InterruptEntryPushesAndVectors : Prop :=
  ∀ (s : State) (k : BitVec 8), s.mem.wf = true → s.CanEnter s.systemStack k →
    let t := s.interruptEntry k
    let handler := t.busValue .read (s.vectorAddress k) .word &&& 0xFFFFFFFC#32
    (s.flagP = false → PushedTwo s.mem t.mem s.isp s.pc ((s.sr &&& 0x0FC3#16).zeroExtend 32) ∧
      t = { s with isp := s.isp - 8#32, sr := (s.sr &&& ~~~0x1000#16) ||| 0x0100#16, pc := handler, mem := t.mem,
                   busTime := s.busTime + 1 }) ∧
    (s.flagP = true → PushedTwo s.mem t.mem s.ssp s.spc ((s.sr &&& 0x0DC3#16).zeroExtend 32) ∧
      t = { s with isp := s.ssp - 8#32, ssp := s.isp, spc := s.pc, sr := (s.sr &&& ~~~0x1200#16) ||| 0x0100#16,
                   pc := handler, mem := t.mem,
                   busTime := s.busTime + 1 })

/-- `rfi` undoes a trap entry from system mode, with the stack in memory: it restores `sr` and `isp` and continues at
the pushed `pc` (R223, R255, R273). Rests on the spec's decisions D15, D21, D41 and on log 8. -/
def Obligations.ReturnFromInterruptUndoesTrapEntry : Prop :=
  ∀ (s : State) (k : Trap), s.Inv → s.flagP = false → s.flagT = false → s.CanEnter s.isp (trapIndex k) →
    let t := s.trapEntry k
    accessFails t .read t.isp .word = false → accessFails t .read (t.isp + 4#32) .word = false →
    t.isDevice t.isp .word = false → t.isDevice (t.isp + 4#32) .word = false →
    exec (.rfi .always) t = .next { s with mem := t.mem, busTime := s.busTime + 1 }

/-- No instruction of protected mode changes the system registers or the control bits of `sr` and stays in protected
mode, but for the halt of a failed entry; only a trap or an interrupt entry leaves it (R27, R276). Rests on the spec's
decisions D15, D22. -/
def Obligations.ProtectedModeIsConfined : Prop :=
  ∀ (i : Instr) (s t : State), s.flagP = true → exec i s = .next t →
    (t.flagP = true → t.ssp = s.ssp ∧ t.sii = s.sii ∧ t.spc = s.spc ∧ (t.control = s.control ∨ t = s.halt)) ∧
    (t.flagP = false → (∃ k, t = s.trapEntry k) ∨ (∃ k, t = s.interruptEntry k))

end Statements
end

