-- ==== Sys2Proof/Laws/Bits.lean ====
section
/-! SUPPORT. Bit fields: reading a bit of what the field operations of Machine/Bits.lean build. -/

namespace Sys2Proof.Machine

/-- A bit of a value with one bit set. -/
theorem getLsbD_setBit {w : Nat} (v : BitVec w) (i : Nat) (b : Bool) (j : Nat) :
    (setBit v i b).getLsbD j = if j = i ∧ j < w then b else v.getLsbD j := by
  by_cases hj : j < w
  · by_cases h : j = i <;> cases b <;> simp [setBit, h, hj, BitVec.getLsbD_twoPow] <;> simp_all
  · have := BitVec.getLsbD_of_ge v j (by omega)
    cases b <;> simp [setBit, hj, this, BitVec.getLsbD_twoPow]
    omega

/-- A multiple of 4 has its two low bits clear. -/
theorem aligned4_iff (a : Word) : aligned4 a = true ↔ a.getLsbD 0 = false ∧ a.getLsbD 1 = false := by
  simp only [aligned4, beq_iff_eq]
  constructor
  · intro h
    have h0 := congrArg (fun v => BitVec.getLsbD v 0) h
    have h1 := congrArg (fun v => BitVec.getLsbD v 1) h
    simpa using And.intro h0 h1
  · rintro ⟨h0, h1⟩
    apply BitVec.eq_of_getLsbD_eq
    intro i hi
    have : i = 0 ∨ i = 1 := by omega
    rcases this with rfl | rfl
    · simpa using h0
    · simpa using h1

/-- The same with the remainder. -/
theorem aligned4_iff_mod (a : Word) : aligned4 a = true ↔ a.toNat % 4 = 0 := by
  simp only [aligned4, beq_iff_eq, ← BitVec.toNat_inj, BitVec.extractLsb'_toNat]
  simp

/-- Clearing the two low bits aligns. -/
@[simp] theorem aligned4_clear2 (a : Word) : aligned4 (clear2 a) = true := by
  simp [aligned4_iff, clear2]

/-- Clearing twice is clearing once. -/
@[simp] theorem clear2_clear2 (a : Word) : clear2 (clear2 a) = clear2 a := by
  simp [clear2, BitVec.and_assoc]

/-- An aligned address is left as it is. -/
theorem clear2_of_aligned {a : Word} (h : aligned4 a = true) : clear2 a = a := by
  obtain ⟨h0, h1⟩ := (aligned4_iff a).1 h
  apply BitVec.eq_of_getLsbD_eq
  intro i hi
  have hm : ∀ j < 32, (0xFFFFFFFC#32).getLsbD j = decide (2 ≤ j) := by decide
  rcases Nat.lt_or_ge i 2 with h | h
  · have : i = 0 ∨ i = 1 := by omega
    rcases this with rfl | rfl
    · rw [h0]; simp [clear2]
    · rw [h1]; simp [clear2]
  · simp only [clear2, BitVec.getLsbD_and, hm i hi]
    simp [h]

/-- The next word of an aligned address is aligned. -/
@[simp] theorem aligned4_add_four (a : Word) : aligned4 (a + 4#32) = aligned4 a := by
  rw [Bool.eq_iff_iff, aligned4_iff_mod, aligned4_iff_mod, BitVec.toNat_add]
  simp only [BitVec.toNat_ofNat]
  omega

/-- A bit of a flag word with one flag updated. -/
theorem getLsbD_setFlag (w : Half) (i : Nat) (b : Option Bool) (j : Nat) (hi : i < 16) :
    (setFlag w i b).getLsbD j = if j = i then b.getD (w.getLsbD j) else w.getLsbD j := by
  cases b with
  | none => simp [setFlag]
  | some b =>
    simp only [setFlag, getLsbD_setBit, Option.getD_some]
    by_cases h : j = i
    · subst h; simp [hi]
    · simp [h]

/-- A bit of a flag word after an update: Z, C, V and N where they are named, the old bit elsewhere (R26, R28). -/
theorem getLsbD_applyFlags (u : FlagUpdate) (w : Half) (j : Nat) :
    (applyFlags u w).getLsbD j =
      if j = 0 then u.z.getD (w.getLsbD 0)
      else if j = 1 then u.c.getD (w.getLsbD 1)
      else if j = 6 then u.v.getD (w.getLsbD 6)
      else if j = 7 then u.n.getD (w.getLsbD 7)
      else w.getLsbD j := by
  simp only [applyFlags, getLsbD_setFlag _ 7 _ _ (by decide), getLsbD_setFlag _ 6 _ _ (by decide),
    getLsbD_setFlag _ 1 _ _ (by decide), getLsbD_setFlag _ 0 _ _ (by decide)]
  by_cases h0 : j = 0
  · subst h0; simp
  by_cases h1 : j = 1
  · subst h1; simp
  by_cases h6 : j = 6
  · subst h6; simp
  by_cases h7 : j = 7
  · subst h7; simp
  simp [h0, h1, h6, h7]

/-- A bit of a word put together from two halves. -/
theorem getLsbD_append_half (a b : Half) (i : Nat) :
    (a ++ b : Word).getLsbD i = if i < 16 then b.getLsbD i else a.getLsbD (i - 16) :=
  BitVec.getLsbD_append

/-- The halves of a register, put together again. -/
theorem lower16_append (a b : Half) : lower16 (a ++ b) = b := by
  apply BitVec.eq_of_getLsbD_eq
  intro i hi
  simp only [lower16, BitVec.getLsbD_extractLsb', getLsbD_append_half]
  simp [hi]

theorem higher16_append (a b : Half) : higher16 (a ++ b) = a := by
  apply BitVec.eq_of_getLsbD_eq
  intro i hi
  simp only [higher16, BitVec.getLsbD_extractLsb', getLsbD_append_half]
  simp [hi]

@[simp] theorem lower16_withLower16 (v : Word) (h : Half) : lower16 (withLower16 v h) = h := lower16_append _ _
@[simp] theorem higher16_withLower16 (v : Word) (h : Half) : higher16 (withLower16 v h) = higher16 v :=
  higher16_append _ _
@[simp] theorem lower16_withHigher16 (v : Word) (h : Half) : lower16 (withHigher16 v h) = lower16 v :=
  lower16_append _ _
@[simp] theorem higher16_withHigher16 (v : Word) (h : Half) : higher16 (withHigher16 v h) = h :=
  higher16_append _ _

/-- A register is its two halves. -/
theorem higher16_append_lower16 (v : Word) : higher16 v ++ lower16 v = v := by
  apply BitVec.eq_of_getLsbD_eq
  intro i hi
  rw [getLsbD_append_half]
  simp only [higher16, lower16, BitVec.getLsbD_extractLsb']
  rcases Nat.lt_or_ge i 16 with h | h
  · simp [h]
  · rw [if_neg (by omega), show 16 + (i - 16) = i by omega]
    simp [show i - 16 < 16 by omega]

end Sys2Proof.Machine
end

