-- ==== Sys2Proof/Laws/Decode.lean ====
section
/-! SUPPORT. The fields of the words that the encoder builds, and what the decoder's checks say (30_encoding.md R71,
R73 to R76, R90). -/

namespace Sys2Proof

/-! ## The fields of a standard word -/

/-- The opcode byte of a standard word. -/
@[simp] theorem fieldOp_stdWord (op : BitVec 8) (g : Guard) (lo : Half) : fieldOp (stdWord op g lo) = op := by
  apply BitVec.eq_of_getLsbD_eq
  intro i hi
  simp (disch := omega) only [fieldOp, stdWord, BitVec.getLsbD_extractLsb', BitVec.getLsbD_append]
  grind

/-- `rr` of a standard word. -/
@[simp] theorem fieldRr_stdWord (op : BitVec 8) (g : Guard) (lo : Half) : fieldRr (stdWord op g lo) = g.rr := by
  apply BitVec.eq_of_getLsbD_eq
  intro i hi
  simp (disch := omega) only [fieldRr, stdWord, BitVec.getLsbD_extractLsb', BitVec.getLsbD_append]
  grind

/-- `cccc` of a standard word. -/
@[simp] theorem fieldCccc_stdWord (op : BitVec 8) (g : Guard) (lo : Half) : fieldCccc (stdWord op g lo) = condCode g.cond := by
  apply BitVec.eq_of_getLsbD_eq
  intro i hi
  simp (disch := omega) only [fieldCccc, stdWord, BitVec.getLsbD_extractLsb', BitVec.getLsbD_append]
  grind

/-- The operand half of a standard word. -/
@[simp] theorem fieldLo_stdWord (op : BitVec 8) (g : Guard) (lo : Half) : fieldLo (stdWord op g lo) = lo := by
  apply BitVec.eq_of_getLsbD_eq
  intro i hi
  simp (disch := omega) only [fieldLo, stdWord, BitVec.getLsbD_extractLsb', BitVec.getLsbD_append]
  grind

/-- The reserved bits of a standard word. -/
@[simp] theorem fieldV_stdWord (op : BitVec 8) (g : Guard) (lo : Half) : fieldV (stdWord op g lo) = 0#2 := by
  apply BitVec.eq_of_getLsbD_eq
  intro i hi
  simp (disch := omega) only [fieldV, stdWord, BitVec.getLsbD_extractLsb', BitVec.getLsbD_append]
  grind

/-! ## The operand fields -/

/-- Field `x` of `loXYZ`. -/
@[simp] theorem operandX_loXYZ (x y z : Reg) : operandX (loXYZ x y z) = x := by
  apply BitVec.eq_of_getLsbD_eq
  intro i hi
  simp (disch := omega) only [operandX, loXYZ, BitVec.getLsbD_extractLsb', BitVec.getLsbD_append]
  grind

/-- Field `y` of `loXYZ`. -/
@[simp] theorem operandY_loXYZ (x y z : Reg) : operandY (loXYZ x y z) = y := by
  apply BitVec.eq_of_getLsbD_eq
  intro i hi
  simp (disch := omega) only [operandY, loXYZ, BitVec.getLsbD_extractLsb', BitVec.getLsbD_append]
  grind

/-- Field `z` of `loXYZ`. -/
@[simp] theorem operandZ_loXYZ (x y z : Reg) : operandZ (loXYZ x y z) = z := by
  apply BitVec.eq_of_getLsbD_eq
  intro i hi
  simp (disch := omega) only [operandZ, loXYZ, BitVec.getLsbD_extractLsb', BitVec.getLsbD_append]
  grind

/-- Field `x` of `loXYN`. -/
@[simp] theorem operandX_loXYN (x y : Reg) (n : BitVec 8) : operandX (loXYN x y n) = x := by
  apply BitVec.eq_of_getLsbD_eq
  intro i hi
  simp (disch := omega) only [operandX, loXYN, BitVec.getLsbD_extractLsb', BitVec.getLsbD_append]
  grind

/-- Field `y` of `loXYN`. -/
@[simp] theorem operandY_loXYN (x y : Reg) (n : BitVec 8) : operandY (loXYN x y n) = y := by
  apply BitVec.eq_of_getLsbD_eq
  intro i hi
  simp (disch := omega) only [operandY, loXYN, BitVec.getLsbD_extractLsb', BitVec.getLsbD_append]
  grind

/-- The 8-bit immediate of `loXYN`. -/
@[simp] theorem operandN8_loXYN (x y : Reg) (n : BitVec 8) : operandN8 (loXYN x y n) = n := by
  apply BitVec.eq_of_getLsbD_eq
  intro i hi
  simp (disch := omega) only [operandN8, loXYN, BitVec.getLsbD_extractLsb', BitVec.getLsbD_append]
  grind

/-- Field `x` of `loXY`. -/
@[simp] theorem operandX_loXY (x y : Reg) : operandX (loXY x y) = x := by
  apply BitVec.eq_of_getLsbD_eq
  intro i hi
  simp (disch := omega) only [operandX, loXY, BitVec.getLsbD_extractLsb', BitVec.getLsbD_append]
  grind

/-- Field `y` of `loXY`. -/
@[simp] theorem operandY_loXY (x y : Reg) : operandY (loXY x y) = y := by
  apply BitVec.eq_of_getLsbD_eq
  intro i hi
  simp (disch := omega) only [operandY, loXY, BitVec.getLsbD_extractLsb', BitVec.getLsbD_append]
  grind

/-- Field `x` of `loXN`. -/
@[simp] theorem operandX_loXN (x : Reg) (n : BitVec 12) : operandX (loXN x n) = x := by
  apply BitVec.eq_of_getLsbD_eq
  intro i hi
  simp (disch := omega) only [operandX, loXN, BitVec.getLsbD_extractLsb', BitVec.getLsbD_append]
  grind

/-- The 12-bit immediate of `loXN`. -/
@[simp] theorem operandN12_loXN (x : Reg) (n : BitVec 12) : operandN12 (loXN x n) = n := by
  apply BitVec.eq_of_getLsbD_eq
  intro i hi
  simp (disch := omega) only [operandN12, loXN, BitVec.getLsbD_extractLsb', BitVec.getLsbD_append]
  grind

/-- Field `x` of `loX`. -/
@[simp] theorem operandX_loX (x : Reg) : operandX (loX x) = x := by
  apply BitVec.eq_of_getLsbD_eq
  intro i hi
  simp (disch := omega) only [operandX, loX, BitVec.getLsbD_extractLsb', BitVec.getLsbD_append]
  grind

/-- The must-be-zero bits of `loXYZ`. -/
@[simp] theorem zero_loXYZ (x y z : Reg) : (loXYZ x y z).extractLsb' 12 4 = 0#4 := by
  apply BitVec.eq_of_getLsbD_eq
  intro i hi
  simp (disch := omega) only [loXYZ, BitVec.getLsbD_extractLsb', BitVec.getLsbD_append]
  grind

/-- The must-be-zero bits of `loXY`. -/
@[simp] theorem zero_loXY (x y : Reg) : (loXY x y).extractLsb' 8 8 = 0#8 := by
  apply BitVec.eq_of_getLsbD_eq
  intro i hi
  simp (disch := omega) only [loXY, BitVec.getLsbD_extractLsb', BitVec.getLsbD_append]
  grind

/-- The must-be-zero bits of `loX`. -/
@[simp] theorem zero_loX (x : Reg) : (loX x).extractLsb' 4 12 = 0#12 := by
  apply BitVec.eq_of_getLsbD_eq
  intro i hi
  simp (disch := omega) only [loX, BitVec.getLsbD_extractLsb', BitVec.getLsbD_append]
  grind

/-! ## The fields of a compact halfword -/

/-- The halfword itself. -/
@[simp] theorem lower16_halfWord (op : BitVec 8) (q w : BitVec 4) : Machine.lower16 (halfWord op q w) = op ++ q ++ w := by
  apply BitVec.eq_of_getLsbD_eq
  intro i hi
  simp (disch := omega) only [Machine.lower16, halfWord, BitVec.getLsbD_extractLsb', BitVec.getLsbD_append]
  grind

/-- Nothing above the halfword. -/
@[simp] theorem higher16_halfWord (op : BitVec 8) (q w : BitVec 4) : Machine.higher16 (halfWord op q w) = 0#16 := by
  apply BitVec.eq_of_getLsbD_eq
  intro i hi
  simp (disch := omega) only [Machine.higher16, halfWord, BitVec.getLsbD_extractLsb', BitVec.getLsbD_append]
  grind

/-- The class nibble. -/
@[simp] theorem class_half (op : BitVec 8) (q w : BitVec 4) : (op ++ q ++ w).extractLsb' 12 4 = op.extractLsb' 4 4 := by
  apply BitVec.eq_of_getLsbD_eq
  intro i hi
  simp (disch := omega) only [BitVec.getLsbD_extractLsb', BitVec.getLsbD_append]
  grind

/-- The operation nibble. -/
@[simp] theorem operation_half (op : BitVec 8) (q w : BitVec 4) : (op ++ q ++ w).extractLsb' 8 4 = op.extractLsb' 0 4 := by
  apply BitVec.eq_of_getLsbD_eq
  intro i hi
  simp (disch := omega) only [BitVec.getLsbD_extractLsb', BitVec.getLsbD_append]
  grind

/-- The operand byte. -/
@[simp] theorem operands_half (op : BitVec 8) (q w : BitVec 4) : (op ++ q ++ w).extractLsb' 0 8 = q ++ w := by
  apply BitVec.eq_of_getLsbD_eq
  intro i hi
  simp (disch := omega) only [BitVec.getLsbD_extractLsb', BitVec.getLsbD_append]
  grind

/-- Field `w`. -/
@[simp] theorem compactW_append (q w : BitVec 4) : compactW (q ++ w) = w := by
  apply BitVec.eq_of_getLsbD_eq
  intro i hi
  simp (disch := omega) only [compactW, BitVec.getLsbD_extractLsb', BitVec.getLsbD_append]
  grind

/-- Field `q`. -/
@[simp] theorem compactQ_append (q w : BitVec 4) : compactQ (q ++ w) = q := by
  apply BitVec.eq_of_getLsbD_eq
  intro i hi
  simp (disch := omega) only [compactQ, BitVec.getLsbD_extractLsb', BitVec.getLsbD_append]
  grind

/-- An operand byte is its two fields. -/
@[simp] theorem compactQ_append_compactW (lo : BitVec 8) : compactQ lo ++ compactW lo = lo := by
  revert lo
  decide

/-- Decoding an encoded compact instruction is decoding its class. -/
theorem decodeHalf_halfWord (op : BitVec 8) (q w : BitVec 4) :
    decodeHalf (Machine.lower16 (halfWord op q w)) =
      match op.extractLsb' 4 4 with
      | 0x8#4 => .ok (.cRsvd80 (op.extractLsb' 0 4) (q ++ w))
      | 0x9#4 => .ok (decodeC1 (op.extractLsb' 0 4) (q ++ w))
      | 0xA#4 => .ok (decodeC2R (op.extractLsb' 0 4) (q ++ w))
      | 0xB#4 => .ok (decodeC2I (op.extractLsb' 0 4) (q ++ w))
      | 0xC#4 => .ok (decodeCAluR (op.extractLsb' 0 4) (q ++ w))
      | 0xD#4 => .ok (decodeCAluI (op.extractLsb' 0 4) (q ++ w))
      | 0xE#4 => .ok (decodeCSt (op.extractLsb' 0 4) (q ++ w))
      | 0xF#4 => .ok (decodeCLd (op.extractLsb' 0 4) (q ++ w))
      | _ => .error .markerClear := by
  simp only [decodeHalf, lower16_halfWord, class_half, operation_half, operands_half]
  all_goals rfl

/-! ## The condition byte -/

/-- Every condition code decodes from its own bits. -/
@[simp] theorem condOfCode_condCode (c : Cond) : condOfCode (condCode c) = some c := by
  cases c <;> rfl

/-- Bits decode to the code they encode. -/
theorem condCode_of_condOfCode {b : BitVec 4} {c : Cond} (h : condOfCode b = some c) : condCode c = b := by
  revert c
  revert b
  decide

/-- A well-formed guard decodes from its standard word. -/
theorem decodeGuard_stdWord {g : Guard} (h : g.wellFormed = true) (op : BitVec 8) (lo : Half) :
    decodeGuard (stdWord op g lo) = .ok g := by
  simp [decodeGuard, h]

/-- What a decoded guard says about the word. -/
theorem decodeGuard_ok {w : Word} {g : Guard} (h : decodeGuard w = .ok g) :
    fieldV w = 0#2 ∧ condCode g.cond = fieldCccc w ∧ g.rr = fieldRr w ∧ g.wellFormed = true := by
  unfold decodeGuard at h
  split at h
  · cases h
  · rename_i hv
    split at h
    · cases h
    · rename_i c hc
      split at h
      · rename_i hw
        cases h
        exact ⟨by simpa using hv, condCode_of_condOfCode hc, rfl, hw⟩
      · cases h

/-- Bit 31 of a standard word is the top bit of its opcode byte. -/
theorem msb_stdWord (op : BitVec 8) (g : Guard) (lo : Half) : (stdWord op g lo).msb = op.msb := by
  simp (disch := omega) only [stdWord, BitVec.msb_eq_getLsbD_last, BitVec.getLsbD_append]
  grind

/-- Decoding a standard word is decoding its opcode byte and its operand half. -/
theorem decodeStd_stdWord {op : BitVec 8} {g : Guard} (ho : op.msb = false) (hg : g.wellFormed = true) (lo : Half) :
    decodeStd (stdWord op g lo) = decodeOp op g lo := by
  simp only [decodeStd, msb_stdWord, ho, decodeGuard_stdWord hg, fieldOp_stdWord, fieldLo_stdWord]
  rfl

/-- Decoding a word whose condition byte is sound. -/
theorem decodeStd_of_guard {w : Word} {g : Guard} (hm : w.msb = false) (hg : decodeGuard w = .ok g) :
    decodeStd w = decodeOp (fieldOp w) g (fieldLo w) := by
  simp only [decodeStd, hm, hg]
  rfl

/-- An accepted word has bit 31 clear and a sound condition byte. -/
theorem decodeStd_ok {w : Word} {i : Instr} (h : decodeStd w = .ok i) :
    ∃ g, w.msb = false ∧ decodeGuard w = .ok g ∧ decodeOp (fieldOp w) g (fieldLo w) = .ok i := by
  unfold decodeStd at h
  split at h
  · cases h
  · rename_i hm
    split at h
    · cases h
    · rename_i g hg
      exact ⟨g, by simpa using hm, hg, h⟩

/-- A word is its opcode byte, its condition byte and its operand half. -/
theorem stdWord_of_fields {w : Word} {g : Guard} (h : decodeGuard w = .ok g) :
    stdWord (fieldOp w) g (fieldLo w) = w := by
  obtain ⟨hv, hc, hr, -⟩ := decodeGuard_ok h
  simp only [stdWord, hc, hr, ← hv]
  apply BitVec.eq_of_getLsbD_eq
  intro i hi
  simp (disch := omega) only [fieldOp, fieldV, fieldRr, fieldCccc, fieldLo, BitVec.getLsbD_extractLsb',
    BitVec.getLsbD_append]
  grind

/-- The must-be-zero check passes exactly for zero bits. -/
theorem needZero_ok {g : Guard} {zero : Bool} {i j : Instr} :
    needZero g zero i = .ok j ↔ zero = true ∧ i = j := by
  cases zero <;> simp [needZero]

end Sys2Proof
end

