-- ==== Sys2Proof/Laws/Memory.lean ====
section
/-! SUPPORT. Memory: reading after writing, and the canonical form kept by every operation that writes. -/

namespace Sys2Proof.Machine

/-! ## One byte -/

/-- Below its lower bound a canonical memory reads as unlisted. -/
theorem readByte_of_lt {m : Memory} {lo a : Nat} (h : memoryWfFrom lo m = true) (ha : a < lo) :
    readByte m a = unlistedByte := by
  induction m generalizing lo with
  | nil => rfl
  | cons c rest ih =>
    obtain ⟨k, b⟩ := c
    simp only [memoryWfFrom, Bool.and_eq_true, decide_eq_true_eq] at h
    simp only [readByte]
    rw [if_neg (by omega)]
    exact ih h.2 (by omega)

/-- The canonical form holds from every smaller bound on. -/
theorem memoryWfFrom_mono {m : Memory} {lo lo' : Nat} (h : memoryWfFrom lo m = true) (hlo : lo' ≤ lo) :
    memoryWfFrom lo' m = true := by
  cases m with
  | nil => rfl
  | cons c rest =>
    obtain ⟨k, b⟩ := c
    simp only [memoryWfFrom, Bool.and_eq_true, decide_eq_true_eq] at h ⊢
    exact ⟨⟨⟨by omega, h.1.1.2⟩, h.1.2⟩, h.2⟩

/-- A read after a write of one byte. -/
theorem readByte_writeByte {m : Memory} {lo : Nat} (h : memoryWfFrom lo m = true) (a : Nat) (v : Byte) (b : Nat) :
    readByte (writeByte m a v) b = if b = a then v else readByte m b := by
  induction m generalizing lo with
  | nil =>
    by_cases hb : b = a
    · subst hb
      by_cases hv : v = unlistedByte <;> simp [writeByte, readByte, hv]
    · have hb' : a ≠ b := fun he => hb he.symm
      by_cases hv : v = unlistedByte <;> simp [writeByte, readByte, hv, hb, hb']
  | cons c rest ih =>
    obtain ⟨k, u⟩ := c
    simp only [memoryWfFrom, Bool.and_eq_true, decide_eq_true_eq] at h
    have low : ∀ b', b' ≤ k → readByte rest b' = unlistedByte := fun b' hb' => readByte_of_lt h.2 (by omega)
    by_cases hb : b = a
    · subst hb
      rw [if_pos rfl]
      rcases Nat.lt_trichotomy b k with h1 | h1 | h1
      · have hk : k ≠ b := by omega
        by_cases hv : v = unlistedByte
        · simp [writeByte, readByte, h1, hv, hk, low b (by omega)]
        · simp [writeByte, readByte, h1, hv]
      · subst h1
        by_cases hv : v = unlistedByte
        · simp [writeByte, hv, low b (by omega)]
        · simp [writeByte, readByte, hv]
      · have hk : k ≠ b := by omega
        have hn : ¬ b < k := by omega
        simp only [writeByte, if_neg hn, if_neg hk.symm, readByte, if_neg hk]
        simpa using ih h.2
    · rw [if_neg hb]
      have hb' : a ≠ b := fun he => hb he.symm
      rcases Nat.lt_trichotomy a k with h1 | h1 | h1
      · by_cases hv : v = unlistedByte <;> simp [writeByte, readByte, h1, hv, hb']
      · subst h1
        by_cases hv : v = unlistedByte <;> simp [writeByte, readByte, hv, hb']
      · have hk : k ≠ a := by omega
        have hn : ¬ a < k := by omega
        have := ih h.2
        rw [if_neg hb] at this
        simp only [writeByte, if_neg hn, if_neg hk.symm, readByte, this]

/-- Writing a byte keeps the canonical form. -/
theorem memoryWfFrom_writeByte {m : Memory} {lo a : Nat} (h : memoryWfFrom lo m = true) (hlo : lo ≤ a)
    (ha : a < 2 ^ 32) (v : Byte) : memoryWfFrom lo (writeByte m a v) = true := by
  induction m generalizing lo with
  | nil =>
    by_cases hv : v = unlistedByte
    · simp [writeByte, hv, memoryWfFrom]
    · simp only [writeByte, if_neg hv, memoryWfFrom, Bool.and_eq_true, decide_eq_true_eq, bne_iff_ne]
      exact ⟨⟨⟨hlo, ha⟩, hv⟩, trivial⟩
  | cons c rest ih =>
    obtain ⟨k, u⟩ := c
    have h' := h
    simp only [memoryWfFrom, Bool.and_eq_true, decide_eq_true_eq, bne_iff_ne] at h'
    obtain ⟨⟨⟨hk, hk2⟩, hu⟩, hrest⟩ := h'
    simp only [writeByte]
    split_ifs with h1 hv h2 hv
    · exact h
    · simp only [memoryWfFrom, Bool.and_eq_true, decide_eq_true_eq, bne_iff_ne]
      exact ⟨⟨⟨hlo, ha⟩, hv⟩, ⟨⟨by omega, hk2⟩, hu⟩, hrest⟩
    · exact memoryWfFrom_mono hrest (by omega)
    · subst h2
      simp only [memoryWfFrom, Bool.and_eq_true, decide_eq_true_eq, bne_iff_ne]
      exact ⟨⟨⟨hlo, ha⟩, hv⟩, hrest⟩
    · simp only [memoryWfFrom, Bool.and_eq_true, decide_eq_true_eq, bne_iff_ne]
      exact ⟨⟨⟨hk, hk2⟩, hu⟩, ih hrest (by omega)⟩

/-- The empty memory is canonical, so the memory of reset is. -/
@[simp] theorem wf_nil : Memory.wf [] = true := rfl
theorem reset_mem_wf : State.reset.mem.wf = true := rfl

/-- A read after a write of one byte, for a canonical memory. -/
theorem readByte_writeByte_wf {m : Memory} (h : m.wf = true) (a : Nat) (v : Byte) (b : Nat) :
    readByte (writeByte m a v) b = if b = a then v else readByte m b :=
  readByte_writeByte h a v b

/-- Writing a byte of the address space keeps the canonical form. -/
theorem wf_writeByte {m : Memory} (h : m.wf = true) {a : Nat} (ha : a < 2 ^ 32) (v : Byte) :
    (writeByte m a v).wf = true :=
  memoryWfFrom_writeByte h (Nat.zero_le a) ha v

/-! ## An access -/

/-- Every byte of an access lies in the address space. -/
theorem byteAddress_lt (a : Word) (i : Nat) : byteAddress a i < 2 ^ 32 := (a + BitVec.ofNat 32 i).isLt

/-- The bytes of an access are distinct. -/
theorem byteAddress_inj {a : Word} {i j : Nat} (hi : i < 4) (hj : j < 4) (h : byteAddress a i = byteAddress a j) :
    i = j := by
  simp only [byteAddress, BitVec.toNat_add, BitVec.toNat_ofNat] at h
  omega

theorem byteAddress_zero (a : Word) : byteAddress a 0 = a.toNat := by simp [byteAddress]

/-- A store keeps the canonical form. -/
theorem wf_storeBytes {m : Memory} (h : m.wf = true) (a : Word) (w : Width) (v : Word) :
    (storeBytes m a w v).wf = true := by
  cases w with
  | byte => exact wf_writeByte h a.isLt _
  | half => exact wf_writeByte (wf_writeByte h (byteAddress_lt a 0) _) (byteAddress_lt a 1) _
  | word =>
    exact wf_writeByte (wf_writeByte (wf_writeByte (wf_writeByte h (byteAddress_lt a 0) _) (byteAddress_lt a 1) _)
      (byteAddress_lt a 2) _) (byteAddress_lt a 3) _

/-- What a store does to every byte of memory (20_memory.md R56). -/
theorem storedAt_storeBytes {m : Memory} (h : m.wf = true) (a : Word) (w : Width) (v : Word) :
    StoredAt m (storeBytes m a w v) a w v := by
  have h0 := byteAddress_zero a
  have w0 := wf_writeByte h (byteAddress_lt a 0)
  have w1 := fun x y => wf_writeByte (w0 x) (byteAddress_lt a 1) y
  have w2 := fun x y z => wf_writeByte (w1 x y) (byteAddress_lt a 2) z
  have inj : ∀ i < 4, ∀ j < 4, i ≠ j → byteAddress a i ≠ byteAddress a j :=
    fun i hi j hj hij he => hij (byteAddress_inj hi hj he)
  have n01 := inj 0 (by decide) 1 (by decide) (by decide)
  have n02 := inj 0 (by decide) 2 (by decide) (by decide)
  have n03 := inj 0 (by decide) 3 (by decide) (by decide)
  have n12 := inj 1 (by decide) 2 (by decide) (by decide)
  have n13 := inj 1 (by decide) 3 (by decide) (by decide)
  have n23 := inj 2 (by decide) 3 (by decide) (by decide)
  cases w with
  | byte =>
    refine ⟨fun i hi => ?_, fun b hb => ?_⟩
    · have : i = 0 := by simpa [widthBytes] using hi
      subst this
      simp [storeBytes, ← h0, readByte_writeByte_wf h, byteLane, byteOrder]
    · have := hb 0 (by decide)
      simp only [storeBytes, ← h0, readByte_writeByte_wf h, if_neg this]
  | half =>
    refine ⟨fun i hi => ?_, fun b hb => ?_⟩
    · simp only [storeBytes, readByte_writeByte_wf (w0 _), readByte_writeByte_wf h]
      have : i = 0 ∨ i = 1 := by simp [widthBytes] at hi; omega
      rcases this with rfl | rfl
      · rw [if_neg n01, if_pos rfl]; rfl
      · rw [if_pos rfl]; rfl
    · have b0 := hb 0 (by decide)
      have b1 := hb 1 (by decide)
      simp only [storeBytes, readByte_writeByte_wf (w0 _), readByte_writeByte_wf h, if_neg b0, if_neg b1]
  | word =>
    refine ⟨fun i hi => ?_, fun b hb => ?_⟩
    · simp only [storeBytes, readByte_writeByte_wf (w2 _ _ _), readByte_writeByte_wf (w1 _ _),
        readByte_writeByte_wf (w0 _), readByte_writeByte_wf h]
      have : i = 0 ∨ i = 1 ∨ i = 2 ∨ i = 3 := by simp [widthBytes] at hi; omega
      rcases this with rfl | rfl | rfl | rfl
      · rw [if_neg n03, if_neg n02, if_neg n01, if_pos rfl]; rfl
      · rw [if_neg n13, if_neg n12, if_pos rfl]; rfl
      · rw [if_neg n23, if_pos rfl]; rfl
      · rw [if_pos rfl]; rfl
    · have b0 := hb 0 (by decide)
      have b1 := hb 1 (by decide)
      have b2 := hb 2 (by decide)
      have b3 := hb 3 (by decide)
      simp only [storeBytes, readByte_writeByte_wf (w2 _ _ _), readByte_writeByte_wf (w1 _ _),
        readByte_writeByte_wf (w0 _), readByte_writeByte_wf h, if_neg b0, if_neg b1, if_neg b2, if_neg b3]

/-- A load sees only the bytes of its access. -/
theorem loadBytes_congr {m m' : Memory} {a : Word} {w : Width}
    (h : ∀ i < widthBytes w, readByte m (byteAddress a i) = readByte m' (byteAddress a i)) :
    loadBytes m a w = loadBytes m' a w := by
  cases w with
  | byte =>
    have := h 0 (by decide)
    rw [byteAddress_zero] at this
    simp only [loadBytes, this]
  | half =>
    have e0 := h 0 (by decide)
    have e1 := h 1 (by decide)
    simp only [loadBytes, byteLane, byteOrder, e0, e1]
  | word =>
    have e0 := h 0 (by decide)
    have e1 := h 1 (by decide)
    have e2 := h 2 (by decide)
    have e3 := h 3 (by decide)
    simp only [loadBytes, byteLane, byteOrder, e0, e1, e2, e3]

/-! ## The two primitives (20_memory.md R55, R56) -/

/-- Memory gives the bytes (20_memory.md R55). -/
theorem busValue_memory {s : State} {a : Word} {w : Width} (h : s.isDevice a w = false) (kind : AccessKind) :
    s.busValue kind a w = loadBytes s.mem a w := by
  simp [State.busValue, h]

/-- What a read delivers depends on the map, the time and memory alone. -/
theorem busValue_congr {s t : State} (hmap : t.memMap = s.memMap) (htime : t.busTime = s.busTime) (hmem : t.mem = s.mem)
    (kind : AccessKind) (a : Word) (w : Width) : t.busValue kind a w = s.busValue kind a w := by
  simp [State.busValue, State.isDevice, hmap, htime, hmem]

/-- Which addresses hold a device depends on the map alone. -/
theorem isDevice_congr {s t : State} (hmap : t.memMap = s.memMap) (a : Word) (w : Width) :
    t.isDevice a w = s.isDevice a w := by
  simp [State.isDevice, hmap]

/-- A value fits the width of its access, from memory and from a device. -/
theorem busValue_lt (s : State) (kind : AccessKind) (a : Word) (w : Width) :
    (s.busValue kind a w).toNat < 2 ^ (8 * widthBytes w) := by
  have zext : ∀ {n : Nat} (v : BitVec n), n ≤ 32 → (v.zeroExtend 32).toNat < 2 ^ n := fun {n} v hn => by
    have : v.toNat < 2 ^ 32 := lt_of_lt_of_le v.isLt (Nat.pow_le_pow_right (by decide) hn)
    rw [BitVec.toNat_setWidth, Nat.mod_eq_of_lt this]
    exact v.isLt
  unfold State.busValue
  cases w <;> split_ifs
  · exact zext _ (by decide)
  · exact zext _ (by decide)
  · exact zext _ (by decide)
  · exact zext _ (by decide)
  · exact BitVec.isLt _
  · exact BitVec.isLt _

/-- A read that goes through gives what is there. -/
theorem memRead_ok {s : State} {kind : AccessKind} {a : Word} {w : Width} (h : s.CanAccess kind a w) :
    memRead s kind a w = .ok (s.busValue kind a w) := by
  simp [memRead, h.1, h.2]

/-- A misaligned read traps before the platform is asked. -/
theorem memRead_misaligned {s : State} {kind : AccessKind} {a : Word} {w : Width} (h : misaligned a w = true) :
    memRead s kind a w = .error .align := by
  simp [memRead, h]

theorem memRead_fails {s : State} {kind : AccessKind} {a : Word} {w : Width} (h : misaligned a w = false)
    (hf : accessFails s kind a w = true) : memRead s kind a w = .error .access := by
  simp [memRead, h, hf]

/-- A write that goes through changes memory alone. -/
theorem memWrite_ok {s : State} {a : Word} {w : Width} (v : Word) (h : s.CanAccess .write a w) :
    memWrite s a w v = .ok { s with mem := storeBytes s.mem a w v } := by
  simp [memWrite, h.1, h.2]

theorem memWrite_misaligned {s : State} {a : Word} {w : Width} (v : Word) (h : misaligned a w = true) :
    memWrite s a w v = .error .align := by
  simp [memWrite, h]

theorem memWrite_fails {s : State} {a : Word} {w : Width} (v : Word) (h : misaligned a w = false)
    (hf : accessFails s .write a w = true) : memWrite s a w v = .error .access := by
  simp [memWrite, h, hf]

/-- Everything a write can do. -/
theorem memWrite_cases {s t : State} {a : Word} {w : Width} {v : Word} (h : memWrite s a w v = .ok t) :
    s.CanAccess .write a w ∧ t = { s with mem := storeBytes s.mem a w v } := by
  unfold memWrite at h
  split_ifs at h with h1 h2
  refine ⟨⟨by simpa using h1, by simpa using h2⟩, ?_⟩
  simpa using h.symm

/-- Everything a read can do. -/
theorem memRead_cases {s : State} {kind : AccessKind} {a v : Word} {w : Width} (h : memRead s kind a w = .ok v) :
    s.CanAccess kind a w ∧ v = s.busValue kind a w := by
  unfold memRead at h
  split_ifs at h with h1 h2
  refine ⟨⟨by simpa using h1, by simpa using h2⟩, ?_⟩
  simpa using h.symm

/-- The platform's answer looks only at the list of clauses. -/
theorem accessFails_congr {s t : State} (h : t.failing = s.failing) (kind : AccessKind) (a : Word) (w : Width) :
    accessFails t kind a w = accessFails s kind a w := by
  simp [accessFails, h]

/-- A word access is aligned when its address is a multiple of 4. -/
theorem misaligned_word (a : Word) : misaligned a .word = !aligned4 a := rfl

end Sys2Proof.Machine
end

