-- ==== Sys2Proof/Laws/State.lean ====
section
/-! SUPPORT. One lemma per field per named update of the state, so that no proof unfolds a record update. -/

namespace Sys2Proof.Machine

/-! ### One bit of `sr` -/

@[simp] theorem State.withSrBit_r (s : State) (i : Nat) (b : Bool) : (s.withSrBit i b).r = s.r := rfl
@[simp] theorem State.withSrBit_dsp (s : State) (i : Nat) (b : Bool) : (s.withSrBit i b).dsp = s.dsp := rfl
@[simp] theorem State.withSrBit_isp (s : State) (i : Nat) (b : Bool) : (s.withSrBit i b).isp = s.isp := rfl
@[simp] theorem State.withSrBit_sr (s : State) (i : Nat) (b : Bool) : (s.withSrBit i b).sr = setBit s.sr i b := rfl
@[simp] theorem State.withSrBit_pc (s : State) (i : Nat) (b : Bool) : (s.withSrBit i b).pc = s.pc := rfl
@[simp] theorem State.withSrBit_ssp (s : State) (i : Nat) (b : Bool) : (s.withSrBit i b).ssp = s.ssp := rfl
@[simp] theorem State.withSrBit_sii (s : State) (i : Nat) (b : Bool) : (s.withSrBit i b).sii = s.sii := rfl
@[simp] theorem State.withSrBit_spc (s : State) (i : Nat) (b : Bool) : (s.withSrBit i b).spc = s.spc := rfl
@[simp] theorem State.withSrBit_mem (s : State) (i : Nat) (b : Bool) : (s.withSrBit i b).mem = s.mem := rfl
@[simp] theorem State.withSrBit_latch (s : State) (i : Nat) (b : Bool) : (s.withSrBit i b).latch = s.latch := rfl
@[simp] theorem State.withSrBit_memMap (s : State) (i : Nat) (b : Bool) : (s.withSrBit i b).memMap = s.memMap := rfl
@[simp] theorem State.withSrBit_busTime (s : State) (i : Nat) (b : Bool) : (s.withSrBit i b).busTime = s.busTime := rfl
@[simp] theorem State.withSrBit_failing (s : State) (i : Nat) (b : Bool) : (s.withSrBit i b).failing = s.failing := rfl
@[simp] theorem State.withSrBit_irqPending (s : State) (i : Nat) (b : Bool) : (s.withSrBit i b).irqPending = s.irqPending := rfl
@[simp] theorem State.withSrBit_nmiPending (s : State) (i : Nat) (b : Bool) : (s.withSrBit i b).nmiPending = s.nmiPending := rfl
@[simp] theorem State.withSrBit_resetLine (s : State) (i : Nat) (b : Bool) : (s.withSrBit i b).resetLine = s.resetLine := rfl

/-! ### The exchange of a context switch -/

@[simp] theorem State.exchange_r (s : State) : (s.exchange).r = s.r := rfl
@[simp] theorem State.exchange_dsp (s : State) : (s.exchange).dsp = s.dsp := rfl
@[simp] theorem State.exchange_isp (s : State) : (s.exchange).isp = s.ssp := rfl
@[simp] theorem State.exchange_sr (s : State) : (s.exchange).sr = s.sr := rfl
@[simp] theorem State.exchange_pc (s : State) : (s.exchange).pc = s.spc := rfl
@[simp] theorem State.exchange_ssp (s : State) : (s.exchange).ssp = s.isp := rfl
@[simp] theorem State.exchange_sii (s : State) : (s.exchange).sii = s.sii := rfl
@[simp] theorem State.exchange_spc (s : State) : (s.exchange).spc = s.pc := rfl
@[simp] theorem State.exchange_mem (s : State) : (s.exchange).mem = s.mem := rfl
@[simp] theorem State.exchange_latch (s : State) : (s.exchange).latch = s.latch := rfl
@[simp] theorem State.exchange_memMap (s : State) : (s.exchange).memMap = s.memMap := rfl
@[simp] theorem State.exchange_busTime (s : State) : (s.exchange).busTime = s.busTime := rfl
@[simp] theorem State.exchange_failing (s : State) : (s.exchange).failing = s.failing := rfl
@[simp] theorem State.exchange_irqPending (s : State) : (s.exchange).irqPending = s.irqPending := rfl
@[simp] theorem State.exchange_nmiPending (s : State) : (s.exchange).nmiPending = s.nmiPending := rfl
@[simp] theorem State.exchange_resetLine (s : State) : (s.exchange).resetLine = s.resetLine := rfl

/-! ### The switch to system mode -/

@[simp] theorem State.toSystem_r (s : State) : (s.toSystem).r = s.r := rfl
@[simp] theorem State.toSystem_dsp (s : State) : (s.toSystem).dsp = s.dsp := rfl
@[simp] theorem State.toSystem_isp (s : State) : (s.toSystem).isp = s.ssp := rfl
@[simp] theorem State.toSystem_sr (s : State) : (s.toSystem).sr = setBit s.sr 9 false := rfl
@[simp] theorem State.toSystem_pc (s : State) : (s.toSystem).pc = s.spc := rfl
@[simp] theorem State.toSystem_ssp (s : State) : (s.toSystem).ssp = s.isp := rfl
@[simp] theorem State.toSystem_sii (s : State) : (s.toSystem).sii = s.sii := rfl
@[simp] theorem State.toSystem_spc (s : State) : (s.toSystem).spc = s.pc := rfl
@[simp] theorem State.toSystem_mem (s : State) : (s.toSystem).mem = s.mem := rfl
@[simp] theorem State.toSystem_latch (s : State) : (s.toSystem).latch = s.latch := rfl
@[simp] theorem State.toSystem_memMap (s : State) : (s.toSystem).memMap = s.memMap := rfl
@[simp] theorem State.toSystem_busTime (s : State) : (s.toSystem).busTime = s.busTime := rfl
@[simp] theorem State.toSystem_failing (s : State) : (s.toSystem).failing = s.failing := rfl
@[simp] theorem State.toSystem_irqPending (s : State) : (s.toSystem).irqPending = s.irqPending := rfl
@[simp] theorem State.toSystem_nmiPending (s : State) : (s.toSystem).nmiPending = s.nmiPending := rfl
@[simp] theorem State.toSystem_resetLine (s : State) : (s.toSystem).resetLine = s.resetLine := rfl

/-! ### The switch to protected mode -/

@[simp] theorem State.toProtected_r (s : State) : (s.toProtected).r = s.r := rfl
@[simp] theorem State.toProtected_dsp (s : State) : (s.toProtected).dsp = s.dsp := rfl
@[simp] theorem State.toProtected_isp (s : State) : (s.toProtected).isp = s.ssp := rfl
@[simp] theorem State.toProtected_sr (s : State) : (s.toProtected).sr = setBit s.sr 9 true := rfl
@[simp] theorem State.toProtected_pc (s : State) : (s.toProtected).pc = s.spc := rfl
@[simp] theorem State.toProtected_ssp (s : State) : (s.toProtected).ssp = s.isp := rfl
@[simp] theorem State.toProtected_sii (s : State) : (s.toProtected).sii = s.sii := rfl
@[simp] theorem State.toProtected_spc (s : State) : (s.toProtected).spc = s.pc := rfl
@[simp] theorem State.toProtected_mem (s : State) : (s.toProtected).mem = s.mem := rfl
@[simp] theorem State.toProtected_latch (s : State) : (s.toProtected).latch = s.latch := rfl
@[simp] theorem State.toProtected_memMap (s : State) : (s.toProtected).memMap = s.memMap := rfl
@[simp] theorem State.toProtected_busTime (s : State) : (s.toProtected).busTime = s.busTime := rfl
@[simp] theorem State.toProtected_failing (s : State) : (s.toProtected).failing = s.failing := rfl
@[simp] theorem State.toProtected_irqPending (s : State) : (s.toProtected).irqPending = s.irqPending := rfl
@[simp] theorem State.toProtected_nmiPending (s : State) : (s.toProtected).nmiPending = s.nmiPending := rfl
@[simp] theorem State.toProtected_resetLine (s : State) : (s.toProtected).resetLine = s.resetLine := rfl

/-! ### `pc` past the fetched word -/

@[simp] theorem State.advance_r (s : State) : (s.advance).r = s.r := rfl
@[simp] theorem State.advance_dsp (s : State) : (s.advance).dsp = s.dsp := rfl
@[simp] theorem State.advance_isp (s : State) : (s.advance).isp = s.isp := rfl
@[simp] theorem State.advance_sr (s : State) : (s.advance).sr = s.sr := rfl
@[simp] theorem State.advance_pc (s : State) : (s.advance).pc = s.pc + 4#32 := rfl
@[simp] theorem State.advance_ssp (s : State) : (s.advance).ssp = s.ssp := rfl
@[simp] theorem State.advance_sii (s : State) : (s.advance).sii = s.sii := rfl
@[simp] theorem State.advance_spc (s : State) : (s.advance).spc = s.spc := rfl
@[simp] theorem State.advance_mem (s : State) : (s.advance).mem = s.mem := rfl
@[simp] theorem State.advance_latch (s : State) : (s.advance).latch = s.latch := rfl
@[simp] theorem State.advance_memMap (s : State) : (s.advance).memMap = s.memMap := rfl
@[simp] theorem State.advance_busTime (s : State) : (s.advance).busTime = s.busTime + 1 := rfl
@[simp] theorem State.advance_failing (s : State) : (s.advance).failing = s.failing := rfl
@[simp] theorem State.advance_irqPending (s : State) : (s.advance).irqPending = s.irqPending := rfl
@[simp] theorem State.advance_nmiPending (s : State) : (s.advance).nmiPending = s.nmiPending := rfl
@[simp] theorem State.advance_resetLine (s : State) : (s.advance).resetLine = s.resetLine := rfl

/-! ### The halt -/

@[simp] theorem State.halt_r (s : State) : (s.halt).r = s.r := rfl
@[simp] theorem State.halt_dsp (s : State) : (s.halt).dsp = s.dsp := rfl
@[simp] theorem State.halt_isp (s : State) : (s.halt).isp = s.isp := rfl
@[simp] theorem State.halt_sr (s : State) : (s.halt).sr = setBit s.sr 12 true := rfl
@[simp] theorem State.halt_pc (s : State) : (s.halt).pc = s.pc := rfl
@[simp] theorem State.halt_ssp (s : State) : (s.halt).ssp = s.ssp := rfl
@[simp] theorem State.halt_sii (s : State) : (s.halt).sii = s.sii := rfl
@[simp] theorem State.halt_spc (s : State) : (s.halt).spc = s.spc := rfl
@[simp] theorem State.halt_mem (s : State) : (s.halt).mem = s.mem := rfl
@[simp] theorem State.halt_latch (s : State) : (s.halt).latch = none := rfl
@[simp] theorem State.halt_memMap (s : State) : (s.halt).memMap = s.memMap := rfl
@[simp] theorem State.halt_busTime (s : State) : (s.halt).busTime = s.busTime := rfl
@[simp] theorem State.halt_failing (s : State) : (s.halt).failing = s.failing := rfl
@[simp] theorem State.halt_irqPending (s : State) : (s.halt).irqPending = s.irqPending := rfl
@[simp] theorem State.halt_nmiPending (s : State) : (s.halt).nmiPending = s.nmiPending := rfl
@[simp] theorem State.halt_resetLine (s : State) : (s.halt).resetLine = s.resetLine := rfl

/-! ### The cleared registers of reset -/

@[simp] theorem State.clearRegisters_r (s : State) : (s.clearRegisters).r = Vector.replicate 12 0#32 := rfl
@[simp] theorem State.clearRegisters_dsp (s : State) : (s.clearRegisters).dsp = 0#32 := rfl
@[simp] theorem State.clearRegisters_isp (s : State) : (s.clearRegisters).isp = 0#32 := rfl
@[simp] theorem State.clearRegisters_sr (s : State) : (s.clearRegisters).sr = 0x0900#16 := rfl
@[simp] theorem State.clearRegisters_pc (s : State) : (s.clearRegisters).pc = 0#32 := rfl
@[simp] theorem State.clearRegisters_ssp (s : State) : (s.clearRegisters).ssp = 0#32 := rfl
@[simp] theorem State.clearRegisters_sii (s : State) : (s.clearRegisters).sii = 0#32 := rfl
@[simp] theorem State.clearRegisters_spc (s : State) : (s.clearRegisters).spc = 0#32 := rfl
@[simp] theorem State.clearRegisters_mem (s : State) : (s.clearRegisters).mem = s.mem := rfl
@[simp] theorem State.clearRegisters_latch (s : State) : (s.clearRegisters).latch = none := rfl
@[simp] theorem State.clearRegisters_memMap (s : State) : (s.clearRegisters).memMap = s.memMap := rfl
@[simp] theorem State.clearRegisters_busTime (s : State) : (s.clearRegisters).busTime = s.busTime + 1 := rfl
@[simp] theorem State.clearRegisters_failing (s : State) : (s.clearRegisters).failing = s.failing := rfl
@[simp] theorem State.clearRegisters_irqPending (s : State) : (s.clearRegisters).irqPending = s.irqPending := rfl
@[simp] theorem State.clearRegisters_nmiPending (s : State) : (s.clearRegisters).nmiPending = s.nmiPending := rfl
@[simp] theorem State.clearRegisters_resetLine (s : State) : (s.clearRegisters).resetLine = .high := rfl

/-! ### The plain register write -/

@[simp] theorem State.setGeneral_sr (s : State) (x : Reg) (v : Word) : (s.setGeneral x v).sr = s.sr := by
  unfold State.setGeneral; split_ifs <;> rfl
@[simp] theorem State.setGeneral_pc (s : State) (x : Reg) (v : Word) : (s.setGeneral x v).pc = s.pc := by
  unfold State.setGeneral; split_ifs <;> rfl
@[simp] theorem State.setGeneral_ssp (s : State) (x : Reg) (v : Word) : (s.setGeneral x v).ssp = s.ssp := by
  unfold State.setGeneral; split_ifs <;> rfl
@[simp] theorem State.setGeneral_sii (s : State) (x : Reg) (v : Word) : (s.setGeneral x v).sii = s.sii := by
  unfold State.setGeneral; split_ifs <;> rfl
@[simp] theorem State.setGeneral_spc (s : State) (x : Reg) (v : Word) : (s.setGeneral x v).spc = s.spc := by
  unfold State.setGeneral; split_ifs <;> rfl
@[simp] theorem State.setGeneral_mem (s : State) (x : Reg) (v : Word) : (s.setGeneral x v).mem = s.mem := by
  unfold State.setGeneral; split_ifs <;> rfl
@[simp] theorem State.setGeneral_latch (s : State) (x : Reg) (v : Word) : (s.setGeneral x v).latch = s.latch := by
  unfold State.setGeneral; split_ifs <;> rfl
@[simp] theorem State.setGeneral_memMap (s : State) (x : Reg) (v : Word) : (s.setGeneral x v).memMap = s.memMap := by
  unfold State.setGeneral; split_ifs <;> rfl
@[simp] theorem State.setGeneral_busTime (s : State) (x : Reg) (v : Word) : (s.setGeneral x v).busTime = s.busTime := by
  unfold State.setGeneral; split_ifs <;> rfl
@[simp] theorem State.setGeneral_failing (s : State) (x : Reg) (v : Word) : (s.setGeneral x v).failing = s.failing := by
  unfold State.setGeneral; split_ifs <;> rfl
@[simp] theorem State.setGeneral_irqPending (s : State) (x : Reg) (v : Word) : (s.setGeneral x v).irqPending = s.irqPending := by
  unfold State.setGeneral; split_ifs <;> rfl
@[simp] theorem State.setGeneral_nmiPending (s : State) (x : Reg) (v : Word) : (s.setGeneral x v).nmiPending = s.nmiPending := by
  unfold State.setGeneral; split_ifs <;> rfl
@[simp] theorem State.setGeneral_resetLine (s : State) (x : Reg) (v : Word) : (s.setGeneral x v).resetLine = s.resetLine := by
  unfold State.setGeneral; split_ifs <;> rfl

/-! ### A condition register -/

@[simp] theorem State.setCc_dsp (s : State) (k : BitVec 2) (v : Half) : (s.setCc k v).dsp = s.dsp := by
  unfold State.setCc; split <;> rfl
@[simp] theorem State.setCc_isp (s : State) (k : BitVec 2) (v : Half) : (s.setCc k v).isp = s.isp := by
  unfold State.setCc; split <;> rfl
@[simp] theorem State.setCc_sr (s : State) (k : BitVec 2) (v : Half) : (s.setCc k v).sr = s.sr := by
  unfold State.setCc; split <;> rfl
@[simp] theorem State.setCc_pc (s : State) (k : BitVec 2) (v : Half) : (s.setCc k v).pc = s.pc := by
  unfold State.setCc; split <;> rfl
@[simp] theorem State.setCc_ssp (s : State) (k : BitVec 2) (v : Half) : (s.setCc k v).ssp = s.ssp := by
  unfold State.setCc; split <;> rfl
@[simp] theorem State.setCc_sii (s : State) (k : BitVec 2) (v : Half) : (s.setCc k v).sii = s.sii := by
  unfold State.setCc; split <;> rfl
@[simp] theorem State.setCc_spc (s : State) (k : BitVec 2) (v : Half) : (s.setCc k v).spc = s.spc := by
  unfold State.setCc; split <;> rfl
@[simp] theorem State.setCc_mem (s : State) (k : BitVec 2) (v : Half) : (s.setCc k v).mem = s.mem := by
  unfold State.setCc; split <;> rfl
@[simp] theorem State.setCc_latch (s : State) (k : BitVec 2) (v : Half) : (s.setCc k v).latch = s.latch := by
  unfold State.setCc; split <;> rfl
@[simp] theorem State.setCc_memMap (s : State) (k : BitVec 2) (v : Half) : (s.setCc k v).memMap = s.memMap := by
  unfold State.setCc; split <;> rfl
@[simp] theorem State.setCc_busTime (s : State) (k : BitVec 2) (v : Half) : (s.setCc k v).busTime = s.busTime := by
  unfold State.setCc; split <;> rfl
@[simp] theorem State.setCc_failing (s : State) (k : BitVec 2) (v : Half) : (s.setCc k v).failing = s.failing := by
  unfold State.setCc; split <;> rfl
@[simp] theorem State.setCc_irqPending (s : State) (k : BitVec 2) (v : Half) : (s.setCc k v).irqPending = s.irqPending := by
  unfold State.setCc; split <;> rfl
@[simp] theorem State.setCc_nmiPending (s : State) (k : BitVec 2) (v : Half) : (s.setCc k v).nmiPending = s.nmiPending := by
  unfold State.setCc; split <;> rfl
@[simp] theorem State.setCc_resetLine (s : State) (k : BitVec 2) (v : Half) : (s.setCc k v).resetLine = s.resetLine := by
  unfold State.setCc; split <;> rfl

/-! ### A flag update -/

@[simp] theorem State.setFlags_dsp (s : State) (g : Guard) (u : FlagUpdate) : (s.setFlags g u).dsp = s.dsp := by
  unfold State.setFlags; split_ifs <;> simp_all
@[simp] theorem State.setFlags_isp (s : State) (g : Guard) (u : FlagUpdate) : (s.setFlags g u).isp = s.isp := by
  unfold State.setFlags; split_ifs <;> simp_all
@[simp] theorem State.setFlags_sr (s : State) (g : Guard) (u : FlagUpdate) : (s.setFlags g u).sr = if g.cond = .f then s.sr else applyFlags u s.sr := by
  unfold State.setFlags; split_ifs <;> simp_all
@[simp] theorem State.setFlags_pc (s : State) (g : Guard) (u : FlagUpdate) : (s.setFlags g u).pc = s.pc := by
  unfold State.setFlags; split_ifs <;> simp_all
@[simp] theorem State.setFlags_ssp (s : State) (g : Guard) (u : FlagUpdate) : (s.setFlags g u).ssp = s.ssp := by
  unfold State.setFlags; split_ifs <;> simp_all
@[simp] theorem State.setFlags_sii (s : State) (g : Guard) (u : FlagUpdate) : (s.setFlags g u).sii = s.sii := by
  unfold State.setFlags; split_ifs <;> simp_all
@[simp] theorem State.setFlags_spc (s : State) (g : Guard) (u : FlagUpdate) : (s.setFlags g u).spc = s.spc := by
  unfold State.setFlags; split_ifs <;> simp_all
@[simp] theorem State.setFlags_mem (s : State) (g : Guard) (u : FlagUpdate) : (s.setFlags g u).mem = s.mem := by
  unfold State.setFlags; split_ifs <;> simp_all
@[simp] theorem State.setFlags_latch (s : State) (g : Guard) (u : FlagUpdate) : (s.setFlags g u).latch = s.latch := by
  unfold State.setFlags; split_ifs <;> simp_all
@[simp] theorem State.setFlags_memMap (s : State) (g : Guard) (u : FlagUpdate) : (s.setFlags g u).memMap = s.memMap := by
  unfold State.setFlags; split_ifs <;> simp_all
@[simp] theorem State.setFlags_busTime (s : State) (g : Guard) (u : FlagUpdate) : (s.setFlags g u).busTime = s.busTime := by
  unfold State.setFlags; split_ifs <;> simp_all
@[simp] theorem State.setFlags_failing (s : State) (g : Guard) (u : FlagUpdate) : (s.setFlags g u).failing = s.failing := by
  unfold State.setFlags; split_ifs <;> simp_all
@[simp] theorem State.setFlags_irqPending (s : State) (g : Guard) (u : FlagUpdate) : (s.setFlags g u).irqPending = s.irqPending := by
  unfold State.setFlags; split_ifs <;> simp_all
@[simp] theorem State.setFlags_nmiPending (s : State) (g : Guard) (u : FlagUpdate) : (s.setFlags g u).nmiPending = s.nmiPending := by
  unfold State.setFlags; split_ifs <;> simp_all
@[simp] theorem State.setFlags_resetLine (s : State) (g : Guard) (u : FlagUpdate) : (s.setFlags g u).resetLine = s.resetLine := by
  unfold State.setFlags; split_ifs <;> simp_all

/-! ### The flags of `sr` -/

/-- Two states with one `sr` have the same flags. -/
theorem State.flags_congr {s t : State} (h : t.sr = s.sr) :
    t.flagF = s.flagF ∧ t.flagT = s.flagT ∧ t.flagS = s.flagS ∧ t.flagP = s.flagP ∧ t.flagI = s.flagI := by
  simp [State.flagF, State.flagT, State.flagS, State.flagP, State.flagI, h]

/-- A flag update leaves the mode as it is. -/
@[simp] theorem State.setFlags_flagP (s : State) (g : Guard) (u : FlagUpdate) : (s.setFlags g u).flagP = s.flagP := by
  simp only [State.flagP, State.setFlags_sr]
  split_ifs
  · rfl
  · rw [getLsbD_applyFlags]; rfl

@[simp] theorem State.setGeneral_flagP (s : State) (x : Reg) (v : Word) : (s.setGeneral x v).flagP = s.flagP := by
  simp [State.flagP]

end Sys2Proof.Machine
end

