-- ==== Sys2Proof/Laws/Ops.lean ====
section
/-! SUPPORT. One lemma per shared operation that says everything it can do: register reads and writes, the end of an
instruction, the stack, the entries. -/

namespace Sys2Proof.Machine

/-! ## Registers -/

/-- The plain write is `writeReg` on registers 0 to 13. -/
theorem writeReg_general {s : State} {x : Reg} (h : x.toNat < 14) (v : Word) :
    s.writeReg x v = .ok (s.setGeneral x v) := by
  unfold State.writeReg State.setGeneral
  split_ifs with h1 h2 h3 h4 <;> first | rfl | skip
  · exact absurd h (by rw [h4]; decide)
  · have : x = 12#4 ∨ x = 13#4 := by
      have : x.toNat = 12 ∨ x.toNat = 13 := by omega
      rcases this with h | h
      · exact .inl (BitVec.eq_of_toNat_eq h)
      · exact .inr (BitVec.eq_of_toNat_eq h)
    rcases this with h | h <;> contradiction

@[simp] theorem writeReg_sr (s : State) (v : Word) : s.writeReg 14#4 v = s.writeSr v := rfl
@[simp] theorem writeReg_pc (s : State) (v : Word) : s.writeReg 15#4 v = s.writePc v := rfl
@[simp] theorem readReg_dsp (s : State) : s.readReg 12#4 = s.dsp := rfl
@[simp] theorem readReg_isp (s : State) : s.readReg 13#4 = s.isp := rfl
@[simp] theorem readReg_sr (s : State) : s.readReg 14#4 = s.srWord := rfl
@[simp] theorem readReg_pc (s : State) : s.readReg 15#4 = s.pc := rfl

theorem writePc_ok {s : State} {v : Word} (h : aligned4 v = true) : s.writePc v = .ok { s with pc := v } := by
  simp [State.writePc, h]

theorem writePc_error {s : State} {v : Word} (h : aligned4 v = false) : s.writePc v = .error .pcAlign := by
  simp [State.writePc, h]

/-- A register number is one of twelve, or 12, 13, 14, 15. -/
theorem reg_cases (x : Reg) : x.toNat < 12 ∨ x = 12#4 ∨ x = 13#4 ∨ x = 14#4 ∨ x = 15#4 := by
  revert x; decide

/-- Reading after a plain write. -/
theorem readReg_setGeneral {s : State} {x : Reg} (h : x.toNat < 14) (v : Word) (j : Reg) :
    (s.setGeneral x v).readReg j = if j = x then v else s.readReg j := by
  have hx : x.toNat < 12 ∨ x = 12#4 ∨ x = 13#4 := by
    rcases reg_cases x with h' | h' | h' | h' | h'
    · exact .inl h'
    · exact .inr (.inl h')
    · exact .inr (.inr h')
    · subst h'; exact absurd h (by decide)
    · subst h'; exact absurd h (by decide)
  rcases hx with hx | rfl | rfl
  · rcases reg_cases j with hj | rfl | rfl | rfl | rfl
    · by_cases hjx : j = x
      · subst hjx; simp [State.setGeneral, State.readReg, hj]
      · have hn : x.toNat ≠ j.toNat := fun he => hjx (BitVec.eq_of_toNat_eq he.symm)
        simp [State.setGeneral, State.readReg, hx, hj, hjx, hn]
    all_goals
      rw [if_neg (by rintro rfl; revert hx; decide)]
      simp [State.setGeneral, hx, State.readReg, State.srWord]
  · rcases reg_cases j with hj | rfl | rfl | rfl | rfl
    · rw [if_neg (by rintro rfl; revert hj; decide)]
      simp [State.setGeneral, State.readReg, hj]
    all_goals rfl
  · rcases reg_cases j with hj | rfl | rfl | rfl | rfl
    · rw [if_neg (by rintro rfl; revert hj; decide)]
      simp [State.setGeneral, State.readReg, hj]
    all_goals rfl

/-! ## The condition registers -/

/-- A condition register reads as last written; the other three keep their values (10_state.md R21, R24). -/
theorem cc_setCc (s : State) (k : BitVec 2) (v : Half) (j : BitVec 2) :
    (s.setCc k v).cc j = if j = k then v else s.cc j := by
  have : ∀ k : BitVec 2, k = 0#2 ∨ k = 1#2 ∨ k = 2#2 ∨ k = 3#2 := by decide
  rcases this k with rfl | rfl | rfl | rfl <;> rcases this j with rfl | rfl | rfl | rfl <;>
    simp [State.setCc, State.cc]

/-- Writing a condition register changes r10 or r11 alone. -/
theorem readReg_setCc (s : State) (k : BitVec 2) (v : Half) (j : Reg) (h10 : j ≠ 10#4) (h11 : j ≠ 11#4) :
    (s.setCc k v).readReg j = s.readReg j := by
  have hk : ∀ k : BitVec 2, k = 0#2 ∨ k = 1#2 ∨ k = 2#2 ∨ k = 3#2 := by decide
  have n10 : 10 ≠ j.toNat := fun h => h10 (BitVec.eq_of_toNat_eq h.symm)
  have n11 : 11 ≠ j.toNat := fun h => h11 (BitVec.eq_of_toNat_eq h.symm)
  rcases hk k with rfl | rfl | rfl | rfl <;>
    simp [State.setCc, State.readReg, State.srWord, n10, n11]

/-- A flag update changes no register but r10, r11 and `sr`. -/
theorem readReg_setFlags (s : State) (g : Guard) (u : FlagUpdate) (j : Reg) (h10 : j ≠ 10#4) (h11 : j ≠ 11#4)
    (h14 : j ≠ 14#4) : (s.setFlags g u).readReg j = s.readReg j := by
  unfold State.setFlags
  split_ifs
  · exact readReg_setCc s _ _ j h10 h11
  · simp [State.readReg, h14]

/-- `WriteSR` writes `sr` alone, whatever it does (10_state.md R32). -/
theorem writeSr_cases {s t : State} {v : Word} (h : s.writeSr v = .ok t) :
    t = { s with sr := lower16 v &&& srMask } ∨
      (s.flagP = true ∧ t = { s with sr := 0#3 ++ s.sr.extractLsb' 8 5 ++ (lower16 v &&& srMask).extractLsb' 0 8 }) := by
  simp only [State.writeSr] at h
  split_ifs at h with hp h1 h2
  · exact .inl (by simpa using h.symm)
  · exact .inr ⟨hp, by simpa using h.symm⟩
  · exact .inl (by simpa using h.symm)

/-- Everything a register write can do: a plain write, a write of `sr` alone, or a write of `pc` alone. -/
theorem writeReg_cases {s t : State} {x : Reg} {v : Word} (h : s.writeReg x v = .ok t) :
    (x.toNat < 14 ∧ t = s.setGeneral x v) ∨ (x = 14#4 ∧ s.writeSr v = .ok t) ∨
      (x = 15#4 ∧ aligned4 v = true ∧ t = { s with pc := v }) := by
  have plain : x.toNat < 14 → t = s.setGeneral x v := fun hx => by
    rw [writeReg_general hx] at h; simpa using h.symm
  rcases reg_cases x with hx | rfl | rfl | rfl | rfl
  · exact .inl ⟨by omega, plain (by omega)⟩
  · exact .inl ⟨by decide, plain (by decide)⟩
  · exact .inl ⟨by decide, plain (by decide)⟩
  · exact .inr (.inl ⟨rfl, h⟩)
  · refine .inr (.inr ⟨rfl, ?_⟩)
    simp only [writeReg_pc, State.writePc] at h
    split_ifs at h with ha
    exact ⟨ha, by simpa using h.symm⟩

/-- What a register write leaves: memory, the system registers, the inputs, the time, the latch, and every other
register. -/
theorem writeReg_frame {s t : State} {x : Reg} {v : Word} (h : s.writeReg x v = .ok t) :
    t.mem = s.mem ∧ t.ssp = s.ssp ∧ t.sii = s.sii ∧ t.spc = s.spc ∧ t.latch = s.latch ∧ s.SameInputs t ∧
      t.busTime = s.busTime ∧
      (∀ j, j ≠ x → t.readReg j = s.readReg j) ∧ (x ≠ 14#4 → t.sr = s.sr) := by
  rcases writeReg_cases h with ⟨hx, rfl⟩ | ⟨rfl, h'⟩ | ⟨rfl, -, rfl⟩
  · refine ⟨by simp, by simp, by simp, by simp, by simp, ⟨by simp, by simp, by simp, by simp, by simp⟩, by simp,
      fun j hj => ?_, by simp⟩
    rw [readReg_setGeneral hx, if_neg hj]
  · have key : ∃ n, t = { s with sr := n } := by
      rcases writeSr_cases h' with rfl | ⟨-, rfl⟩ <;> exact ⟨_, rfl⟩
    obtain ⟨n, rfl⟩ := key
    refine ⟨rfl, rfl, rfl, rfl, rfl, ⟨rfl, rfl, rfl, rfl, rfl⟩, rfl, fun j hj => ?_, fun hc => absurd rfl hc⟩
    simp [State.readReg, hj]
  · refine ⟨rfl, rfl, rfl, rfl, rfl, ⟨rfl, rfl, rfl, rfl, rfl⟩, rfl, fun j hj => ?_, fun _ => rfl⟩
    rcases reg_cases j with hj' | rfl | rfl | rfl | rfl
    · simp [State.readReg, hj']
    · rfl
    · rfl
    · rfl
    · exact absurd rfl hj

/-! ## The end of an instruction -/

theorem conclude_error (s : State) (k : Trap) : s.conclude (.error k) = s.trapEntry k := rfl

/-- No switch: the writes are the next state. -/
theorem conclude_ok {s t : State} (h : s.flagP = false → t.flagP = false) : s.conclude (.ok t) = t := by
  simp only [State.conclude]
  rw [if_neg]
  rintro ⟨h1, h2⟩
  rw [h h1] at h2
  exact absurd h2 (by decide)

/-- P has risen and `spc` is aligned: the exchange (60_exceptions.md R252). -/
theorem conclude_switch {s t : State} (h1 : s.flagP = false) (h2 : t.flagP = true) (h3 : aligned4 t.spc = true) :
    s.conclude (.ok t) = t.exchange := by
  simp [State.conclude, h1, h2, h3]

/-- P has risen and `spc` is misaligned: trap 7 (R252). -/
theorem conclude_switch_misaligned {s t : State} (h1 : s.flagP = false) (h2 : t.flagP = true)
    (h3 : aligned4 t.spc = false) : s.conclude (.ok t) = s.trapEntry .pcAlign := by
  simp [State.conclude, h1, h2, h3]

/-- With P set already, setting it changes nothing. -/
theorem toProtected_eq_exchange {t : State} (h : t.flagP = true) : t.toProtected = t.exchange := by
  have hs : setBit t.sr 9 true = t.sr := by
    apply BitVec.eq_of_getLsbD_eq
    intro i hi
    rw [getLsbD_setBit]
    split_ifs with h'
    · rw [h'.1]; exact h.symm
    · rfl
  simp only [State.toProtected, State.withSrBit, State.exchange, hs]

/-- What an instruction's statements come to. -/
theorem runEffect_eq (body : State → Effect) (s : State) : runEffect body s = .next (s.conclude (body s)) := by
  unfold runEffect
  cases h : body s with
  | error k => simp [Except.bind, State.conclude]
  | ok t =>
    simp only [Except.bind, finish, State.conclude]
    by_cases hp : s.flagP = false ∧ t.flagP = true
    · obtain ⟨h1, h2⟩ := hp
      simp only [h1, h2]
      by_cases ha : aligned4 t.spc = true
      · simp [ha, toProtected_eq_exchange h2]
      · simp [ha]
    · rw [if_neg hp]
      have : (!s.flagP && t.flagP) = false := by
        cases h1 : s.flagP <;> cases h2 : t.flagP <;> simp_all
      simp [this]

/-- A compact instruction always runs its statements (46_compact.md R230). -/
theorem runCompact_eq (body : State → Effect) (s : State) : runCompact body s = .next (s.conclude (body s)) :=
  runEffect_eq body s

/-- A standard instruction whose condition holds runs its statements. -/
theorem runStd_of_holds {g : Guard} {s : State} (hw : g.wellFormed = true) (hc : s.condHolds g = true)
    (body : State → Effect) : runStd g body s = .next (s.conclude (body s)) := by
  simp [runStd, hw, hc, runEffect_eq]

/-- A false condition skips (30_encoding.md R83). -/
theorem runStd_of_false {g : Guard} {s : State} (hw : g.wellFormed = true) (hc : s.condHolds g = false)
    (body : State → Effect) : runStd g body s = .next s := by
  simp [runStd, hw, hc]

/-- A reserved guard traps (30_encoding.md R87 c). -/
theorem runStd_of_illFormed {g : Guard} (s : State) (hw : g.wellFormed = false) (body : State → Effect) :
    runStd g body s = .next (s.trapEntry .invalidOpcode) := by
  simp [runStd, hw]

/-- Everything a standard instruction can do. -/
theorem runStd_cases (g : Guard) (body : State → Effect) (s : State) :
    runStd g body s = .next (s.trapEntry .invalidOpcode) ∨ runStd g body s = .next s ∨
      runStd g body s = .next (s.conclude (body s)) := by
  cases hw : g.wellFormed
  · exact .inl (runStd_of_illFormed s hw body)
  · cases hc : s.condHolds g
    · exact .inr (.inl (runStd_of_false hw hc body))
    · exact .inr (.inr (runStd_of_holds hw hc body))

@[simp] theorem always_wellFormed : Guard.always.wellFormed = true := rfl
@[simp] theorem always_condHolds (s : State) : s.condHolds .always = true := rfl

/-! ## The stack and the entries -/

/-- A multiple of 4 stays one below. -/
@[simp] theorem misaligned_sub_four (a : Word) : misaligned (a - 4#32) .word = misaligned a .word := by
  simp only [misaligned_word]
  congr 1
  have := aligned4_add_four (a - 4#32)
  rw [BitVec.sub_add_cancel] at this
  exact this.symm

@[simp] theorem misaligned_sub_eight (a : Word) : misaligned (a - 8#32) .word = misaligned a .word := by
  rw [show a - 8#32 = a - 4#32 - 4#32 by rw [BitVec.sub_sub]; rfl]
  simp

theorem sub_four_sub_four (a : Word) : a - 4#32 - 4#32 = a - 8#32 := by
  rw [BitVec.sub_sub]; rfl

/-- Two pushes that go through: the words below `isp`, `isp` lowered by 8. -/
theorem push_push {s : State} (h : s.CanPushTwo s.isp) (first second : Word) :
    (s.push first).bind (fun t => t.push second) =
      .ok { s with
        isp := s.isp - 8#32
        mem := storeBytes (storeBytes s.mem (s.isp - 4#32) .word first) (s.isp - 8#32) .word second } := by
  obtain ⟨h1, h2, h3⟩ := h
  have e1 : s.push first =
      .ok { s with isp := s.isp - 4#32, mem := storeBytes s.mem (s.isp - 4#32) .word first } :=
    memWrite_ok (s := { s with isp := s.isp - 4#32 }) first ⟨by simpa using h1, h2⟩
  rw [e1]
  simp only [Except.bind, State.push, sub_four_sub_four]
  rw [memWrite_ok]
  exact ⟨by simpa using h1, h3⟩

/-- Two words below `top`, the higher one first, leave every other byte as it was. -/
theorem pushedTwo_storeBytes {m : Memory} (h : m.wf = true) (top first second : Word) :
    PushedTwo m (storeBytes (storeBytes m (top - 4#32) .word first) (top - 8#32) .word second) top first second := by
  obtain ⟨a1, a2⟩ := storedAt_storeBytes h (top - 4#32) .word first
  obtain ⟨b1, b2⟩ := storedAt_storeBytes (wf_storeBytes h (top - 4#32) .word first) (top - 8#32) .word second
  have apart : ∀ i < 4, ∀ j < 4, byteAddress (top - 4#32) i ≠ byteAddress (top - 8#32) j := by
    intro i hi j hj he
    have h4 : top - 4#32 = (top - 8#32) + 4#32 := by
      rw [← sub_four_sub_four, BitVec.sub_add_cancel]
    rw [h4] at he
    simp only [byteAddress, BitVec.toNat_add, BitVec.toNat_ofNat] at he
    omega
  refine ⟨fun i hi => ?_, b1, fun b hb => ?_⟩
  · rw [b2 _ (fun j hj => apart i hi j hj), a1 i hi]; rfl
  · rw [b2 _ (fun j hj => (hb j hj).2), a2 _ (fun j hj => (hb j hj).1)]

/-- A vector read that goes through. -/
theorem vector_ok {s : State} {k : BitVec 8} (h : accessFails s .read (s.vectorAddress k) .word = false) :
    s.vector k = .ok (clear2 (s.busValue .read (s.vectorAddress k) .word)) := by
  have ha : misaligned (s.vectorAddress k) .word = false := by
    have hm : (s.vectorAddress k).toNat % 4 = 0 := by
      have hc := (aligned4_iff_mod _).1 (aligned4_clear2 s.sii)
      simp only [State.vectorAddress, BitVec.toNat_add, BitVec.toNat_mul, BitVec.toNat_ofNat]
      omega
    rw [misaligned_word, (aligned4_iff_mod _).2 hm]; rfl
  unfold State.vector
  rw [show clear2 s.sii + 4#32 * k.zeroExtend 32 = s.vectorAddress k from rfl, memRead_ok ⟨ha, h⟩]
  rfl

/-- A vector read that the platform lets fail. -/
theorem vector_fails {s : State} {k : BitVec 8} (h : accessFails s .read (s.vectorAddress k) .word = true) :
    s.vector k = .error .access := by
  have ha : misaligned (s.vectorAddress k) .word = false := by
    have hm : (s.vectorAddress k).toNat % 4 = 0 := by
      have hc := (aligned4_iff_mod _).1 (aligned4_clear2 s.sii)
      simp only [State.vectorAddress, BitVec.toNat_add, BitVec.toNat_mul, BitVec.toNat_ofNat]
      omega
    rw [misaligned_word, (aligned4_iff_mod _).2 hm]; rfl
  unfold State.vector
  rw [show clear2 s.sii + 4#32 * k.zeroExtend 32 = s.vectorAddress k from rfl, memRead_fails ha h]
  rfl

/-- An entry that can be delivered: both words pushed, the bit set, `pc` from the table (R255, R260). -/
theorem enterVia_ok {s : State} {k : BitVec 8} (h : s.CanEnter s.isp k) (bit : Nat) :
    let m := storeBytes (storeBytes s.mem (s.isp - 4#32) .word s.pc) (s.isp - 8#32) .word s.srWord
    let t := { s with isp := s.isp - 8#32, sr := setBit s.sr bit true, mem := m, busTime := s.busTime + 1 }
    s.enterVia bit k = .ok { t with pc := clear2 (t.busValue .read (s.vectorAddress k) .word) } := by
  have e := push_push h.1 s.pc s.srWord
  intro m t
  unfold State.enterVia
  cases h1 : s.push s.pc with
  | error t => rw [h1] at e; cases e
  | ok s1 =>
    obtain ⟨-, hs1⟩ := memWrite_cases h1
    rw [h1] at e
    have hw : s1.srWord = s.srWord := by rw [hs1]; rfl
    simp only [bind, Except.bind, hw] at e ⊢
    rw [e]
    have hv := vector_ok (k := k) (s := { s with
      isp := s.isp - 8#32, sr := setBit s.sr bit true, busTime := s.busTime + 1
      mem := storeBytes (storeBytes s.mem (s.isp - 4#32) .word s.pc) (s.isp - 8#32) .word s.srWord }) h.2
    simp only [State.withSrBit]
    rw [hv]
    rfl

/-- An entry that cannot be delivered traps inside, whichever of its accesses fails (R261). -/
theorem enterVia_fails {s : State} {k : BitVec 8} (h : ¬ s.CanEnter s.isp k) (bit : Nat) :
    ∃ t, s.enterVia bit k = .error t := by
  unfold State.enterVia
  by_cases h1 : misaligned s.isp .word = true
  · refine ⟨.align, ?_⟩
    have : s.push s.pc = .error .align := memWrite_misaligned _ (by simpa using h1)
    rw [this]; rfl
  have h1' : misaligned s.isp .word = false := by simpa using h1
  by_cases h2 : accessFails s .write (s.isp - 4#32) .word = true
  · refine ⟨.access, ?_⟩
    have : s.push s.pc = .error .access := memWrite_fails _ (by simpa using h1') h2
    rw [this]; rfl
  have h2' : accessFails s .write (s.isp - 4#32) .word = false := by simpa using h2
  have e1 : s.push s.pc =
      .ok { s with isp := s.isp - 4#32, mem := storeBytes s.mem (s.isp - 4#32) .word s.pc } :=
    memWrite_ok (s := { s with isp := s.isp - 4#32 }) s.pc ⟨by simpa using h1', h2'⟩
  rw [e1]
  simp only [bind, Except.bind]
  by_cases h3 : accessFails s .write (s.isp - 8#32) .word = true
  · refine ⟨.access, ?_⟩
    simp only [State.push, sub_four_sub_four]
    rw [memWrite_fails]
    · simpa using h1'
    · exact h3
  have h3' : accessFails s .write (s.isp - 8#32) .word = false := by simpa using h3
  have h4 : accessFails s .read (s.vectorAddress k) .word = true := by
    by_contra h4
    exact h ⟨⟨h1', h2', h3'⟩, by simpa using h4⟩
  refine ⟨.access, ?_⟩
  simp only [State.push, sub_four_sub_four]
  rw [memWrite_ok (h := And.intro (by simpa using h1') (by exact h3'))]
  have hv := vector_fails (k := k) (s := { s with
    isp := s.isp - 8#32, sr := setBit s.sr bit true, busTime := s.busTime + 1
    mem := storeBytes (storeBytes s.mem (s.isp - 4#32) .word s.pc) (s.isp - 8#32) .word
      (State.srWord { s with isp := s.isp - 4#32, mem := storeBytes s.mem (s.isp - 4#32) .word s.pc }) }) h4
  simp only [State.withSrBit]
  rw [hv]

@[simp] theorem enterSystem_isp (s : State) : s.enterSystem.isp = s.systemStack := by
  unfold State.enterSystem State.systemStack; split_ifs <;> rfl

@[simp] theorem enterSystem_mem (s : State) : s.enterSystem.mem = s.mem := by
  unfold State.enterSystem; split_ifs <;> rfl

@[simp] theorem enterSystem_memMap (s : State) : s.enterSystem.memMap = s.memMap := by
  unfold State.enterSystem; split_ifs <;> rfl

@[simp] theorem enterSystem_busTime (s : State) : s.enterSystem.busTime = s.busTime := by
  unfold State.enterSystem; split_ifs <;> rfl

@[simp] theorem enterSystem_failing (s : State) : s.enterSystem.failing = s.failing := by
  unfold State.enterSystem; split_ifs <;> rfl

@[simp] theorem enterSystem_sii (s : State) : s.enterSystem.sii = s.sii := by
  unfold State.enterSystem; split_ifs <;> rfl

/-- Whether an entry can be delivered depends on the stack pointer, `sii` and the platform alone. -/
theorem canEnter_congr {s t : State} (hf : t.failing = s.failing) (hs : t.sii = s.sii) (top : Word) (k : BitVec 8) :
    t.CanEnter top k ↔ s.CanEnter top k := by
  simp only [State.CanEnter, State.CanPushTwo, State.vectorAddress, hs, accessFails_congr hf]

/-- A trap with T set in system mode halts (R257). -/
theorem trapEntry_doubleTrap {s : State} (ht : s.flagT = true) (hp : s.flagP = false) (k : Trap) :
    s.trapEntry k = s.halt := by
  simp [State.trapEntry, ht, hp]

/-- A trap whose entry cannot be delivered halts (R261). -/
theorem trapEntry_fails {s : State} {k : Trap} (h : ¬ s.CanEnter s.systemStack (trapIndex k)) :
    s.trapEntry k = s.halt := by
  have h' : ¬ s.enterSystem.CanEnter s.enterSystem.isp (trapIndex k) := by
    rw [canEnter_congr (s := s) (by simp) (by simp)]; simpa using h
  obtain ⟨t, ht⟩ := enterVia_fails h' 11
  unfold State.trapEntry
  rw [ht]
  split_ifs <;> rfl

/-- A trap whose entry is delivered (R255). -/
theorem trapEntry_ok {s : State} {k : Trap} (hh : ¬(s.flagT = true ∧ s.flagP = false))
    (h : s.CanEnter s.systemStack (trapIndex k)) :
    let e := s.enterSystem
    let m := storeBytes (storeBytes s.mem (s.systemStack - 4#32) .word e.pc) (s.systemStack - 8#32) .word e.srWord
    let t := { e with
      isp := s.systemStack - 8#32, sr := setBit e.sr 11 true, mem := m, busTime := s.busTime + 1, latch := none }
    s.trapEntry k = { t with pc := clear2 (t.busValue .read (s.vectorAddress (trapIndex k)) .word) } := by
  intro e m t
  have h' : s.enterSystem.CanEnter s.enterSystem.isp (trapIndex k) := by
    rw [canEnter_congr (s := s) (by simp) (by simp)]; simpa using h
  have hok := enterVia_ok h' 11
  unfold State.trapEntry
  rw [if_neg, hok]
  · simp [e, m, t, State.vectorAddress, State.busValue, State.isDevice]
  · intro hc
    simp only [Bool.and_eq_true, Bool.not_eq_true'] at hc
    exact hh hc

/-- An interrupt whose entry cannot be delivered halts (R261). -/
theorem interruptEntry_fails {s : State} {k : BitVec 8} (h : ¬ s.CanEnter s.systemStack k) :
    s.interruptEntry k = s.halt := by
  have h' : ¬ (s.enterSystem.withSrBit 12 false).CanEnter (s.enterSystem.withSrBit 12 false).isp k := by
    rw [canEnter_congr (s := s) (by simp) (by simp)]; simpa using h
  obtain ⟨t, ht⟩ := enterVia_fails h' 8
  unfold State.interruptEntry
  rw [ht]

/-- An interrupt whose entry is delivered (R260). -/
theorem interruptEntry_ok {s : State} {k : BitVec 8} (h : s.CanEnter s.systemStack k) :
    let e := s.enterSystem.withSrBit 12 false
    let m := storeBytes (storeBytes s.mem (s.systemStack - 4#32) .word e.pc) (s.systemStack - 8#32) .word e.srWord
    let t := { e with isp := s.systemStack - 8#32, sr := setBit e.sr 8 true, mem := m, busTime := s.busTime + 1 }
    s.interruptEntry k = { t with pc := clear2 (t.busValue .read (s.vectorAddress k) .word) } := by
  intro e m t
  have h' : e.CanEnter e.isp k := by
    rw [canEnter_congr (s := s) (by simp [e]) (by simp [e])]; simpa [e] using h
  have hok := enterVia_ok h' 8
  unfold State.interruptEntry
  rw [hok]
  simp [e, m, t, State.vectorAddress, State.busValue, State.isDevice]

end Sys2Proof.Machine
end

