-- ==== Sys2Proof/Laws/Exec.lean ====
section
/-! SUPPORT. What every instruction's statements keep, and so what `exec` can answer: the lemmas about the whole
instruction set cite these and open no instruction. -/

namespace Sys2Proof.Machine

/-- `t` is a state that statements of an instruction can make of `s`: the latch and the inputs are kept; `pc` stays
aligned, the reserved bits stay clear and memory stays canonical; protected mode keeps the system registers and bits
12:8 of `sr`. -/
structure Keeps (s t : State) : Prop where
  latch : t.latch = s.latch
  inputs : s.SameInputs t
  mem : s.mem.wf = true → t.mem.wf = true
  pc : aligned4 s.pc = true → aligned4 t.pc = true
  sr : s.sr &&& ~~~srMask = 0#16 → t.sr &&& ~~~srMask = 0#16
  sii : clear2 s.sii = s.sii → clear2 t.sii = t.sii
  protectedMode : s.flagP = true → t.ssp = s.ssp ∧ t.sii = s.sii ∧ t.spc = s.spc ∧ t.control = s.control

/-- The same control bits are the same mode. -/
theorem flagP_of_control {s t : State} (h : t.control = s.control) : t.flagP = s.flagP := by
  have := congrArg (fun c => BitVec.getLsbD c 1) h
  simpa [State.control, State.flagP] using this

namespace Keeps

theorem refl (s : State) : Keeps s s :=
  ⟨rfl, ⟨rfl, rfl, rfl, rfl, rfl⟩, id, id, id, id, fun _ => ⟨rfl, rfl, rfl, rfl⟩⟩

theorem trans {s t u : State} (h : Keeps s t) (k : Keeps t u) : Keeps s u where
  latch := k.latch.trans h.latch
  inputs := ⟨k.inputs.1.trans h.inputs.1, k.inputs.2.1.trans h.inputs.2.1, k.inputs.2.2.1.trans h.inputs.2.2.1,
    k.inputs.2.2.2.1.trans h.inputs.2.2.2.1, k.inputs.2.2.2.2.trans h.inputs.2.2.2.2⟩
  mem := k.mem ∘ h.mem
  pc := k.pc ∘ h.pc
  sr := k.sr ∘ h.sr
  sii := k.sii ∘ h.sii
  protectedMode := fun hp => by
    obtain ⟨a, b, c, d⟩ := h.protectedMode hp
    obtain ⟨a', b', c', d'⟩ := k.protectedMode ((flagP_of_control d).trans hp)
    exact ⟨a'.trans a, b'.trans b, c'.trans c, d'.trans d⟩

/-- A change of a general register, `dsp` or `isp` alone. -/
theorem setRegs (s : State) (r : Vector Word 12) (d i : Word) : Keeps s { s with r := r, dsp := d, isp := i } :=
  ⟨rfl, ⟨rfl, rfl, rfl, rfl, rfl⟩, id, id, id, id, fun _ => ⟨rfl, rfl, rfl, rfl⟩⟩

/-- A change of `pc` alone, to an aligned address. -/
theorem setPc (s : State) {v : Word} (h : aligned4 v = true) : Keeps s { s with pc := v } :=
  ⟨rfl, ⟨rfl, rfl, rfl, rfl, rfl⟩, id, fun _ => h, id, id, fun _ => ⟨rfl, rfl, rfl, rfl⟩⟩

/-- A change of memory alone, to a canonical one. -/
theorem setMem (s : State) {m : Memory} (h : s.mem.wf = true → m.wf = true) : Keeps s { s with mem := m } :=
  ⟨rfl, ⟨rfl, rfl, rfl, rfl, rfl⟩, h, id, id, id, fun _ => ⟨rfl, rfl, rfl, rfl⟩⟩

/-- A change of `sr` alone. -/
theorem setSr (s : State) {v : Half} (h : s.sr &&& ~~~srMask = 0#16 → v &&& ~~~srMask = 0#16)
    (hc : s.flagP = true → v.extractLsb' 8 5 = s.sr.extractLsb' 8 5) : Keeps s { s with sr := v } :=
  ⟨rfl, ⟨rfl, rfl, rfl, rfl, rfl⟩, id, id, h, id, fun hp => ⟨rfl, rfl, rfl, hc hp⟩⟩

end Keeps

/-- The masked bits of a masked value. -/
theorem and_srMask_reserved (v : Half) : v &&& srMask &&& ~~~srMask = 0#16 := by
  simp [BitVec.and_assoc]

/-- No reserved bit is set, bit by bit. -/
theorem reserved_iff (v : Half) :
    v &&& ~~~srMask = 0#16 ↔ ∀ i < 16, srMask.getLsbD i = false → v.getLsbD i = false := by
  constructor
  · intro h i hi hm
    have := congrArg (fun w => BitVec.getLsbD w i) h
    simp only [BitVec.getLsbD_and, BitVec.getLsbD_not, hm, hi] at this
    simpa using this
  · intro h
    apply BitVec.eq_of_getLsbD_eq
    intro i hi
    simp only [BitVec.getLsbD_and, BitVec.getLsbD_not, hi, decide_true, Bool.true_and, BitVec.getLsbD_zero]
    cases hm : srMask.getLsbD i
    · simp [h i hi hm]
    · simp

/-- `WriteSR` (10_state.md R32). -/
theorem keeps_writeSr {s t : State} {v : Word} (h : s.writeSr v = .ok t) : Keeps s t := by
  simp only [State.writeSr] at h
  split_ifs at h with hp h1 h2
  · cases h
    exact Keeps.setSr s (fun _ => and_srMask_reserved _) (fun _ => by simpa using h1)
  · cases h
    refine Keeps.setSr s (fun h0 => ?_) (fun _ => ?_)
    · rw [reserved_iff] at h0 ⊢
      intro i hi hm
      have hk := h0 i hi hm
      simp (disch := omega) only [BitVec.getLsbD_append, BitVec.getLsbD_extractLsb']
      have : i < 8 ∨ (8 ≤ i ∧ i < 13) ∨ (13 ≤ i) := by omega
      rcases this with h8 | ⟨h8, h13⟩ | h13
      · simp [h8, hm]
      · have e : 8 + (i - 8) = i := by omega
        simp only [show ¬ i < 8 by omega, show i - 8 < 5 by omega, e, hk, if_false, if_true, decide_true, Bool.and_false]
      · simp (disch := omega) [show ¬ i < 8 by omega, show ¬ i - 8 < 5 by omega]
    · apply BitVec.eq_of_getLsbD_eq
      intro i hi
      simp (disch := omega) only [BitVec.getLsbD_append, BitVec.getLsbD_extractLsb']
      grind
  · cases h
    exact Keeps.setSr s (fun _ => and_srMask_reserved _) (fun hp' => absurd hp' hp)

/-- The write of a main register (10_state.md R31). -/
theorem keeps_writeReg {s t : State} {x : Reg} {v : Word} (h : s.writeReg x v = .ok t) : Keeps s t := by
  rcases writeReg_cases h with ⟨hx, rfl⟩ | ⟨-, h'⟩ | ⟨-, ha, rfl⟩
  · unfold State.setGeneral
    split_ifs
    · exact Keeps.setRegs s _ _ _
    · exact Keeps.setRegs s _ _ _
    · exact Keeps.setRegs s _ _ _
    · exact Keeps.refl s
  · exact keeps_writeSr h'
  · exact Keeps.setPc s ha

/-- The write of `pc` (10_state.md R23). -/
theorem keeps_writePc {s t : State} {v : Word} (h : s.writePc v = .ok t) : Keeps s t :=
  keeps_writeReg (x := 15#4) h

/-- A flag update (10_state.md R28). -/
theorem keeps_setFlags (s : State) (g : Guard) (u : FlagUpdate) : Keeps s (s.setFlags g u) := by
  unfold State.setFlags
  split_ifs
  · unfold State.setCc
    split <;> exact Keeps.setRegs s _ _ _
  · refine Keeps.setSr s (fun h0 => ?_) (fun _ => ?_)
    · rw [reserved_iff] at h0 ⊢
      intro i hi hm
      have hk := h0 i hi hm
      have hne : i ≠ 0 ∧ i ≠ 1 ∧ i ≠ 6 ∧ i ≠ 7 := by
        refine ⟨?_, ?_, ?_, ?_⟩ <;> (rintro rfl; exact absurd hm (by decide))
      rw [getLsbD_applyFlags]
      simp [hne, hk]
    · apply BitVec.eq_of_getLsbD_eq
      intro i hi
      simp only [BitVec.getLsbD_extractLsb', getLsbD_applyFlags]
      simp [show 8 + i ≠ 1 by omega, show 8 + i ≠ 6 by omega, show 8 + i ≠ 7 by omega]

/-- The store of a value (20_memory.md R56). -/
theorem keeps_memWrite {s t : State} {a : Word} {w : Width} {v : Word} (h : memWrite s a w v = .ok t) :
    Keeps s t := by
  obtain ⟨-, rfl⟩ := memWrite_cases h
  exact Keeps.setMem s (fun hm => wf_storeBytes hm a w v)

/-- A push (60_exceptions.md R254). -/
theorem keeps_push {s t : State} {v : Word} (h : s.push v = .ok t) : Keeps s t :=
  (Keeps.setRegs s s.r s.dsp (s.isp - 4#32)).trans (keeps_memWrite h)

/-! ## The shared statements -/

/-- Peeling one statement off a sequence. -/
theorem bind_ok {α : Type} {e : Except Trap α} {f : α → Effect} {t : State} (h : (e >>= f) = .ok t) :
    ∃ a, e = .ok a ∧ f a = .ok t := by
  cases e with
  | error k => cases h
  | ok a => exact ⟨a, rfl, h⟩

/-- The statements `body` keep what they must, from every state. -/
abbrev BodyKeeps (body : State → Effect) : Prop := ∀ s t, body s = .ok t → Keeps s t

theorem keeps_writeAlu (g : Guard) (x : Reg) (o : AluOut) : BodyKeeps (writeAlu g x o) := by
  intro s t h
  obtain ⟨s1, h1, h⟩ := bind_ok h
  cases h
  exact (keeps_writeReg h1).trans (keeps_setFlags _ _ _)

theorem keeps_writeWide (g : Guard) (x : Reg) (o : WideOut) : BodyKeeps (writeWide g x o) := by
  intro s t h
  obtain ⟨s1, h1, h⟩ := bind_ok h
  obtain ⟨s2, h2, h⟩ := bind_ok h
  cases h
  exact ((keeps_writeReg h1).trans (keeps_writeReg h2)).trans (keeps_setFlags _ _ _)

theorem keeps_aluRegister (op : Word → Word → AluOut) (g : Guard) (x y z : Reg) :
    BodyKeeps (aluRegister op g x y z) := fun s t h => keeps_writeAlu _ _ _ s t h

theorem keeps_aluImmediate (op : Word → Word → AluOut) (g : Guard) (x y : Reg) (imm : Word) :
    BodyKeeps (aluImmediate op g x y imm) := fun s t h => keeps_writeAlu _ _ _ s t h

theorem keeps_wideRegister (op : Word → Word → WideOut) (g : Guard) (x y z : Reg) :
    BodyKeeps (wideRegister op g x y z) := fun s t h => keeps_writeWide _ _ _ s t h

theorem keeps_wideImmediate (op : Word → Word → WideOut) (g : Guard) (x y : Reg) (imm : Word) :
    BodyKeeps (wideImmediate op g x y imm) := fun s t h => keeps_writeWide _ _ _ s t h

theorem keeps_divide (op : Word → Word → WideOut) (g : Guard) (x : Reg) (a b : Word) :
    BodyKeeps (divide op g x a b) := by
  intro s t h
  simp only [divide] at h
  split_ifs at h
  exact keeps_writeWide _ _ _ s t h

theorem keeps_divideRegister (op : Word → Word → WideOut) (g : Guard) (x y z : Reg) :
    BodyKeeps (divideRegister op g x y z) := fun s t h => keeps_divide _ _ _ _ _ s t h

theorem keeps_divideImmediate (op : Word → Word → WideOut) (g : Guard) (x y : Reg) (imm : Word) :
    BodyKeeps (divideImmediate op g x y imm) := fun s t h => keeps_divide _ _ _ _ _ s t h

theorem keeps_unaryRegister (op : Word → AluOut) (g : Guard) (x y : Reg) : BodyKeeps (unaryRegister op g x y) :=
  fun s t h => keeps_writeAlu _ _ _ s t h

theorem keeps_compare (g : Guard) (x y : Reg) : BodyKeeps (compare g x y) := by
  intro s t h
  cases h
  exact keeps_setFlags _ _ _

theorem keeps_move (x y : Reg) : BodyKeeps (move x y) := fun _ _ h => keeps_writeReg h

theorem keeps_moveHalf (put : Word → Half → Word) (get : Word → Half) (x y : Reg) :
    BodyKeeps (moveHalf put get x y) := fun _ _ h => keeps_writeReg h

theorem keeps_swap (x y : Reg) : BodyKeeps (swap x y) := by
  intro s t h
  obtain ⟨s1, h1, h⟩ := bind_ok h
  exact (keeps_writeReg h1).trans (keeps_writeReg h)

/-- A system mode instruction runs its statements in system mode only (60_exceptions.md R275). -/
theorem systemOnly_ok {k : Trap} {body : State → Effect} {s t : State} (h : systemOnly k body s = .ok t) :
    s.flagP = false ∧ body s = .ok t := by
  unfold systemOnly at h
  split_ifs at h with hp
  exact ⟨by simpa using hp, h⟩

theorem keeps_moveToSystem (k : Trap) (x y : Reg) : BodyKeeps (systemOnly k (moveToSystem x y)) := by
  intro s t h
  obtain ⟨hp, h⟩ := systemOnly_ok h
  unfold moveToSystem at h
  split at h
  · cases h
  · rename_i r _
    cases h
    cases r
    · exact ⟨rfl, ⟨rfl, rfl, rfl, rfl, rfl⟩, id, id, id, id, fun hp' => by simp [hp] at hp'⟩
    · exact ⟨rfl, ⟨rfl, rfl, rfl, rfl, rfl⟩, id, id, id, fun _ => clear2_clear2 _, fun hp' => by simp [hp] at hp'⟩
    · exact ⟨rfl, ⟨rfl, rfl, rfl, rfl, rfl⟩, id, id, id, id, fun hp' => by simp [hp] at hp'⟩

theorem keeps_moveFromSystem (k : Trap) (x y : Reg) : BodyKeeps (systemOnly k (moveFromSystem x y)) := by
  intro s t h
  obtain ⟨-, h⟩ := systemOnly_ok h
  unfold moveFromSystem at h
  split at h
  · cases h
  · exact keeps_writeReg h

theorem keeps_storeAt (w : Width) (x y : Reg) (off : Word) : BodyKeeps (storeAt w x y off) :=
  fun _ _ h => keeps_memWrite h

theorem keeps_storeOffset (w : Width) (u : Update) (x y : Reg) (off : Word) :
    BodyKeeps (storeOffset w u x y off) := by
  intro s t h
  cases u
  · exact keeps_storeAt _ _ _ _ s t h
  · obtain ⟨s1, h1, h⟩ := bind_ok h
    exact (keeps_storeAt _ _ _ _ s s1 h1).trans (keeps_writeReg h)
  · obtain ⟨s1, h1, h⟩ := bind_ok h
    exact (keeps_writeReg h1).trans (keeps_storeAt _ _ _ _ s1 t h)
  · obtain ⟨s1, h1, h⟩ := bind_ok h
    exact (keeps_storeAt _ _ _ _ s s1 h1).trans (keeps_writeReg h)

theorem keeps_storeIndexed (w : Width) (x y z : Reg) : BodyKeeps (storeIndexed w x y z) :=
  fun s t h => keeps_storeAt _ _ _ _ s t h

theorem keeps_storeIndexedInc (x y z : Reg) : BodyKeeps (storeIndexedInc x y z) := by
  intro s t h
  obtain ⟨s1, h1, h⟩ := bind_ok h
  exact (keeps_storeIndexed _ _ _ _ s s1 h1).trans (keeps_writeReg h)

theorem keeps_loadAt (w : Width) (x y : Reg) (off : Word) : BodyKeeps (loadAt w x y off) := by
  intro s t h
  obtain ⟨v, -, h⟩ := bind_ok h
  exact keeps_writeReg h

theorem keeps_loadOffset (w : Width) (u : Update) (x y : Reg) (off : Word) :
    BodyKeeps (loadOffset w u x y off) := by
  intro s t h
  cases u
  · exact keeps_loadAt _ _ _ _ s t h
  · obtain ⟨s1, h1, h⟩ := bind_ok h
    exact (keeps_loadAt _ _ _ _ s s1 h1).trans (keeps_writeReg h)
  · obtain ⟨s1, h1, h⟩ := bind_ok h
    exact (keeps_writeReg h1).trans (keeps_loadAt _ _ _ _ s1 t h)
  · obtain ⟨s1, h1, h⟩ := bind_ok h
    exact (keeps_loadAt _ _ _ _ s s1 h1).trans (keeps_writeReg h)

theorem keeps_loadIndexed (w : Width) (x y z : Reg) : BodyKeeps (loadIndexed w x y z) :=
  fun s t h => keeps_loadAt _ _ _ _ s t h

theorem keeps_loadIndexedInc (x y z : Reg) : BodyKeeps (loadIndexedInc x y z) := by
  intro s t h
  obtain ⟨s1, h1, h⟩ := bind_ok h
  exact (keeps_loadIndexed _ _ _ _ s s1 h1).trans (keeps_writeReg h)

theorem keeps_jumpFar (n : Half) : BodyKeeps (jumpFar n) := by
  intro s t h
  obtain ⟨w, -, h⟩ := bind_ok h
  exact keeps_writePc h

theorem keeps_callTo (target : State → Word) : BodyKeeps (callTo target) := by
  intro s t h
  obtain ⟨s1, h1, h⟩ := bind_ok h
  obtain ⟨s2, h2, h⟩ := bind_ok h
  exact ((keeps_push h1).trans (keeps_push h2)).trans (keeps_writePc h)

theorem keeps_fastCallTo (target : State → Word) : BodyKeeps (fastCallTo target) := by
  intro s t h
  obtain ⟨s1, h1, h⟩ := bind_ok h
  obtain ⟨s2, h2, h⟩ := bind_ok h
  exact ((keeps_writeReg h1).trans (keeps_writeReg h2)).trans (keeps_writePc h)

theorem keeps_returnFromCall : BodyKeeps returnFromCall := by
  intro s t h
  obtain ⟨d, -, h⟩ := bind_ok h
  obtain ⟨p, -, h⟩ := bind_ok h
  exact (Keeps.setRegs s s.r d (s.isp + 8#32)).trans (keeps_writePc h)

theorem keeps_returnFromFastCall : BodyKeeps returnFromFastCall := fun s _ h =>
  (Keeps.setRegs s s.r (s.readReg 8#4) s.isp).trans (keeps_writePc h)

theorem keeps_returnFromInterrupt (k : Trap) : BodyKeeps (systemOnly k State.returnFromInterrupt) := by
  intro s t h
  obtain ⟨hp, h⟩ := systemOnly_ok h
  obtain ⟨v, -, h⟩ := bind_ok h
  obtain ⟨p, -, h⟩ := bind_ok h
  refine ((Keeps.setRegs s s.r s.dsp (s.isp + 8#32)).trans (Keeps.setSr _ (fun _ => and_srMask_reserved (lower16 v))
    (fun hp' => ?_))).trans (keeps_writePc h)
  exact absurd (hp.symm.trans hp') (by decide)

theorem keeps_sleep (k : Trap) : BodyKeeps (systemOnly k fun s => .ok (s.withSrBit 12 true)) := by
  intro s t h
  obtain ⟨hp, h⟩ := systemOnly_ok h
  cases h
  refine Keeps.setSr s (fun h0 => ?_) (fun hp' => absurd (hp.symm.trans hp') (by decide))
  rw [reserved_iff] at h0 ⊢
  intro i hi hm
  rw [getLsbD_setBit]
  split_ifs with h
  · rw [h.1] at hm
    exact absurd hm (by decide)
  · exact h0 i hi hm

theorem keeps_brk (k : Trap) : BodyKeeps (systemOnly k fun s => .ok s) := by
  intro s t h
  obtain ⟨-, h⟩ := systemOnly_ok h
  cases h
  exact Keeps.refl s

theorem keeps_reservedOpcode : BodyKeeps reservedOpcode := by
  intro s t h
  cases h

/-! ## What `exec` can answer -/

/-- Everything an instruction can come to: a skip, a trap, an interrupt entry, or statements that keep what they
must. -/
inductive Ends (s : State) (o : Host.Outcome State Fault Refusal) : Prop where
  | skip : o = .next s → Ends s o
  | trap (k : Trap) : o = .next (s.trapEntry k) → Ends s o
  | interrupt (k : BitVec 8) : o = .next (s.interruptEntry k) → Ends s o
  | writes (t : State) : Keeps s t → o = .next (s.conclude (.ok t)) → Ends s o

theorem ends_runCompact {body : State → Effect} (h : BodyKeeps body) (s : State) : Ends s (runCompact body s) := by
  rw [runCompact_eq]
  cases hb : body s with
  | error k => exact .trap k rfl
  | ok t => exact .writes t (h s t hb) rfl

theorem ends_runStd {body : State → Effect} (h : BodyKeeps body) (g : Guard) (s : State) :
    Ends s (runStd g body s) := by
  rcases runStd_cases g body s with e | e | e
  · exact .trap _ e
  · exact .skip e
  · rw [e, ← runCompact_eq]
    exact ends_runCompact h s

/-! ### Constructor by constructor -/

theorem keeps_registerBody (x : Reg) (v : State → Word) : BodyKeeps (fun s => s.writeReg x (v s)) :=
  fun _ _ h => keeps_writeReg h

theorem keeps_pcBody (v : State → Word) : BodyKeeps (fun s => s.writePc (v s)) := fun _ _ h => keeps_writePc h

theorem ends_softwareInterrupt (v : State → Word) (s : State) :
    Ends s (runCompact (fun s => softwareInterrupt (v s) s) s) := by
  rw [runCompact_eq, softwareInterrupt]
  split_ifs
  · exact .trap _ rfl
  · refine .interrupt (lower8 (v s)) ?_
    rw [conclude_ok]
    intro hp
    by_cases hc : s.CanEnter s.systemStack (lower8 (v s))
    · rw [interruptEntry_ok hc]
      show (setBit (setBit s.enterSystem.sr 12 false) 8 true).getLsbD 9 = false
      rw [getLsbD_setBit, getLsbD_setBit]
      simpa [show s.enterSystem = s by simp [State.enterSystem, hp], State.flagP] using hp
    · rw [interruptEntry_fails hc]
      show (setBit s.sr 12 true).getLsbD 9 = false
      rw [getLsbD_setBit]
      exact hp

theorem ends_softwareInterrupt_std (g : Guard) (v : State → Word) (s : State) :
    Ends s (runStd g (fun s => softwareInterrupt (v s) s) s) := by
  rcases runStd_cases g (fun s => softwareInterrupt (v s) s) s with e | e | e
  · exact .trap _ e
  · exact .skip e
  · rw [e, ← runCompact_eq]
    exact ends_softwareInterrupt v s

/-- A standard instruction ends in one of these ways. -/
theorem exec_ends_std (i : Instr) (h : i.isCompact = false) (s : State) : Ends s (exec i s) := by
  cases i with
  | rsvd00 => exact ends_runStd keeps_reservedOpcode _ s
  | ret => exact ends_runStd keeps_returnFromCall _ s
  | fret => exact ends_runStd keeps_returnFromFastCall _ s
  | sleep => exact ends_runStd (keeps_sleep _) _ s
  | rfi => exact ends_runStd (keeps_returnFromInterrupt _) _ s
  | rsvd0C => exact ends_runStd keeps_reservedOpcode _ s
  | rsvd0D => exact ends_runStd keeps_reservedOpcode _ s
  | rsvd0E => exact ends_runStd keeps_reservedOpcode _ s
  | brk => exact ends_runStd (keeps_brk _) _ s
  | ba => apply ends_runStd; exact keeps_pcBody _
  | br => apply ends_runStd; exact keeps_pcBody _
  | jf => exact ends_runStd (keeps_jumpFar _) _ s
  | last => apply ends_runStd; exact keeps_pcBody _
  | call => exact ends_runStd (keeps_callTo _) _ s
  | callr => exact ends_runStd (keeps_callTo _) _ s
  | fcall => exact ends_runStd (keeps_fastCallTo _) _ s
  | fcallr => exact ends_runStd (keeps_fastCallTo _) _ s
  | int g n => exact ends_softwareInterrupt_std g (fun _ => n.zeroExtend 32) s
  | intX g x => exact ends_softwareInterrupt_std g (fun s => s.readReg x) s
  | lil => apply ends_runStd; exact keeps_registerBody _ _
  | lih => apply ends_runStd; exact keeps_registerBody _ _
  | callX => exact ends_runStd (keeps_callTo _) _ s
  | callrX => exact ends_runStd (keeps_callTo _) _ s
  | fcallX => exact ends_runStd (keeps_fastCallTo _) _ s
  | fcallrX => exact ends_runStd (keeps_fastCallTo _) _ s
  | mov => exact ends_runStd (keeps_move _ _) _ s
  | swp => exact ends_runStd (keeps_swap _ _) _ s
  | not => exact ends_runStd (keeps_unaryRegister _ _ _ _) _ s
  | cmp => exact ends_runStd (keeps_compare _ _ _) _ s
  | sxb => exact ends_runStd (keeps_unaryRegister _ _ _ _) _ s
  | sxw => exact ends_runStd (keeps_unaryRegister _ _ _ _) _ s
  | zxb => exact ends_runStd (keeps_unaryRegister _ _ _ _) _ s
  | zxw => exact ends_runStd (keeps_unaryRegister _ _ _ _) _ s
  | rsvd28 => exact ends_runStd keeps_reservedOpcode _ s
  | rsvd29 => exact ends_runStd keeps_reservedOpcode _ s
  | rsvd2A => exact ends_runStd keeps_reservedOpcode _ s
  | rsvd2B => exact ends_runStd keeps_reservedOpcode _ s
  | mvhh => exact ends_runStd (keeps_moveHalf _ _ _ _) _ s
  | mvhl => exact ends_runStd (keeps_moveHalf _ _ _ _) _ s
  | mvlh => exact ends_runStd (keeps_moveHalf _ _ _ _) _ s
  | mvll => exact ends_runStd (keeps_moveHalf _ _ _ _) _ s
  | addN12 => exact ends_runStd (keeps_aluImmediate _ _ _ _ _) _ s
  | subN12 => exact ends_runStd (keeps_aluImmediate _ _ _ _ _) _ s
  | rsvd32 => exact ends_runStd keeps_reservedOpcode _ s
  | rsvd33 => exact ends_runStd keeps_reservedOpcode _ s
  | rsvd34 => exact ends_runStd keeps_reservedOpcode _ s
  | rsvd35 => exact ends_runStd keeps_reservedOpcode _ s
  | rsvd36 => exact ends_runStd keeps_reservedOpcode _ s
  | rsvd37 => exact ends_runStd keeps_reservedOpcode _ s
  | smovTo => exact ends_runStd (keeps_moveToSystem _ _ _) _ s
  | smovFrom => exact ends_runStd (keeps_moveFromSystem _ _ _) _ s
  | rsvd3A => exact ends_runStd keeps_reservedOpcode _ s
  | rsvd3B => exact ends_runStd keeps_reservedOpcode _ s
  | rsvd3C => exact ends_runStd keeps_reservedOpcode _ s
  | rsvd3D => exact ends_runStd keeps_reservedOpcode _ s
  | rsvd3E => exact ends_runStd keeps_reservedOpcode _ s
  | rsvd3F => exact ends_runStd keeps_reservedOpcode _ s
  | add => exact ends_runStd (keeps_aluRegister _ _ _ _ _) _ s
  | sub => exact ends_runStd (keeps_aluRegister _ _ _ _ _) _ s
  | umul => exact ends_runStd (keeps_wideRegister _ _ _ _ _) _ s
  | smul => exact ends_runStd (keeps_wideRegister _ _ _ _ _) _ s
  | udiv => exact ends_runStd (keeps_divideRegister _ _ _ _ _) _ s
  | sdiv => exact ends_runStd (keeps_divideRegister _ _ _ _ _) _ s
  | rsvd46 => exact ends_runStd keeps_reservedOpcode _ s
  | rsvd47 => exact ends_runStd keeps_reservedOpcode _ s
  | and => exact ends_runStd (keeps_aluRegister _ _ _ _ _) _ s
  | or => exact ends_runStd (keeps_aluRegister _ _ _ _ _) _ s
  | xor => exact ends_runStd (keeps_aluRegister _ _ _ _ _) _ s
  | shl => exact ends_runStd (keeps_aluRegister _ _ _ _ _) _ s
  | shr => exact ends_runStd (keeps_aluRegister _ _ _ _ _) _ s
  | sar => exact ends_runStd (keeps_aluRegister _ _ _ _ _) _ s
  | rotl => exact ends_runStd (keeps_aluRegister _ _ _ _ _) _ s
  | rotr => exact ends_runStd (keeps_aluRegister _ _ _ _ _) _ s
  | addN => exact ends_runStd (keeps_aluImmediate _ _ _ _ _) _ s
  | subN => exact ends_runStd (keeps_aluImmediate _ _ _ _ _) _ s
  | umulN => exact ends_runStd (keeps_wideImmediate _ _ _ _ _) _ s
  | smulN => exact ends_runStd (keeps_wideImmediate _ _ _ _ _) _ s
  | udivN => exact ends_runStd (keeps_divideImmediate _ _ _ _ _) _ s
  | sdivN => exact ends_runStd (keeps_divideImmediate _ _ _ _ _) _ s
  | rsvd56 => exact ends_runStd keeps_reservedOpcode _ s
  | rsvd57 => exact ends_runStd keeps_reservedOpcode _ s
  | andN => exact ends_runStd (keeps_aluImmediate _ _ _ _ _) _ s
  | orN => exact ends_runStd (keeps_aluImmediate _ _ _ _ _) _ s
  | xorN => exact ends_runStd (keeps_aluImmediate _ _ _ _ _) _ s
  | shlN => exact ends_runStd (keeps_aluImmediate _ _ _ _ _) _ s
  | shrN => exact ends_runStd (keeps_aluImmediate _ _ _ _ _) _ s
  | sarN => exact ends_runStd (keeps_aluImmediate _ _ _ _ _) _ s
  | rotlN => exact ends_runStd (keeps_aluImmediate _ _ _ _ _) _ s
  | rotrN => exact ends_runStd (keeps_aluImmediate _ _ _ _ _) _ s
  | stb => exact ends_runStd (keeps_storeOffset _ _ _ _ _) _ s
  | stbi => exact ends_runStd (keeps_storeOffset _ _ _ _ _) _ s
  | stbp => exact ends_runStd (keeps_storeOffset _ _ _ _ _) _ s
  | stbd => exact ends_runStd (keeps_storeOffset _ _ _ _ _) _ s
  | sth => exact ends_runStd (keeps_storeOffset _ _ _ _ _) _ s
  | sthi => exact ends_runStd (keeps_storeOffset _ _ _ _ _) _ s
  | sthp => exact ends_runStd (keeps_storeOffset _ _ _ _ _) _ s
  | sthd => exact ends_runStd (keeps_storeOffset _ _ _ _ _) _ s
  | stw => exact ends_runStd (keeps_storeOffset _ _ _ _ _) _ s
  | stwi => exact ends_runStd (keeps_storeOffset _ _ _ _ _) _ s
  | stwp => exact ends_runStd (keeps_storeOffset _ _ _ _ _) _ s
  | stwd => exact ends_runStd (keeps_storeOffset _ _ _ _ _) _ s
  | stbx => exact ends_runStd (keeps_storeIndexed _ _ _ _) _ s
  | sthx => exact ends_runStd (keeps_storeIndexed _ _ _ _) _ s
  | stwx => exact ends_runStd (keeps_storeIndexed _ _ _ _) _ s
  | stwxi => exact ends_runStd (keeps_storeIndexedInc _ _ _) _ s
  | lb => exact ends_runStd (keeps_loadOffset _ _ _ _ _) _ s
  | lbi => exact ends_runStd (keeps_loadOffset _ _ _ _ _) _ s
  | lbp => exact ends_runStd (keeps_loadOffset _ _ _ _ _) _ s
  | lbd => exact ends_runStd (keeps_loadOffset _ _ _ _ _) _ s
  | lh => exact ends_runStd (keeps_loadOffset _ _ _ _ _) _ s
  | lhi => exact ends_runStd (keeps_loadOffset _ _ _ _ _) _ s
  | lhp => exact ends_runStd (keeps_loadOffset _ _ _ _ _) _ s
  | lhd => exact ends_runStd (keeps_loadOffset _ _ _ _ _) _ s
  | lw => exact ends_runStd (keeps_loadOffset _ _ _ _ _) _ s
  | lwi => exact ends_runStd (keeps_loadOffset _ _ _ _ _) _ s
  | lwp => exact ends_runStd (keeps_loadOffset _ _ _ _ _) _ s
  | lwd => exact ends_runStd (keeps_loadOffset _ _ _ _ _) _ s
  | lbx => exact ends_runStd (keeps_loadIndexed _ _ _ _) _ s
  | lhx => exact ends_runStd (keeps_loadIndexed _ _ _ _) _ s
  | lwx => exact ends_runStd (keeps_loadIndexed _ _ _ _) _ s
  | lwxi => exact ends_runStd (keeps_loadIndexedInc _ _ _) _ s
  | _ => exact absurd h Bool.noConfusion

/-- A compact instruction ends in one of these ways. -/
theorem exec_ends_compact (i : Instr) (h : i.isCompact = true) (s : State) : Ends s (exec i s) := by
  cases i with
  | cRsvd80 => exact ends_runCompact keeps_reservedOpcode s
  | cBa => apply ends_runCompact; exact keeps_pcBody _
  | cBr => apply ends_runCompact; exact keeps_pcBody _
  | cJf => exact ends_runCompact (keeps_jumpFar _) s
  | cLast => apply ends_runCompact; exact keeps_pcBody _
  | cCall => exact ends_runCompact (keeps_callTo _) s
  | cCallr => exact ends_runCompact (keeps_callTo _) s
  | cFcall => exact ends_runCompact (keeps_fastCallTo _) s
  | cFcallr => exact ends_runCompact (keeps_fastCallTo _) s
  | cInt n => exact ends_softwareInterrupt (fun _ => (compactN16 n).zeroExtend 32) s
  | cIntX q x => exact ends_softwareInterrupt (fun s => s.readReg x) s
  | cLil => apply ends_runCompact; exact keeps_registerBody _ _
  | cLih => apply ends_runCompact; exact keeps_registerBody _ _
  | cCallX => exact ends_runCompact (keeps_callTo _) s
  | cCallrX => exact ends_runCompact (keeps_callTo _) s
  | cFcallX => exact ends_runCompact (keeps_fastCallTo _) s
  | cFcallrX => exact ends_runCompact (keeps_fastCallTo _) s
  | cMov => exact ends_runCompact (keeps_move _ _) s
  | cSwp => exact ends_runCompact (keeps_swap _ _) s
  | cNot => exact ends_runCompact (keeps_unaryRegister _ _ _ _) s
  | cCmp => exact ends_runCompact (keeps_compare _ _ _) s
  | cSxb => exact ends_runCompact (keeps_unaryRegister _ _ _ _) s
  | cSxw => exact ends_runCompact (keeps_unaryRegister _ _ _ _) s
  | cZxb => exact ends_runCompact (keeps_unaryRegister _ _ _ _) s
  | cZxw => exact ends_runCompact (keeps_unaryRegister _ _ _ _) s
  | cRsvdA8 => exact ends_runCompact keeps_reservedOpcode s
  | cRsvdA9 => exact ends_runCompact keeps_reservedOpcode s
  | cRsvdAA => exact ends_runCompact keeps_reservedOpcode s
  | cRsvdAB => exact ends_runCompact keeps_reservedOpcode s
  | cMvhh => exact ends_runCompact (keeps_moveHalf _ _ _ _) s
  | cMvhl => exact ends_runCompact (keeps_moveHalf _ _ _ _) s
  | cMvlh => exact ends_runCompact (keeps_moveHalf _ _ _ _) s
  | cMvll => exact ends_runCompact (keeps_moveHalf _ _ _ _) s
  | cAddN12 => exact ends_runCompact (keeps_aluImmediate _ _ _ _ _) s
  | cSubN12 => exact ends_runCompact (keeps_aluImmediate _ _ _ _ _) s
  | cRsvdB2 => exact ends_runCompact keeps_reservedOpcode s
  | cRsvdB3 => exact ends_runCompact keeps_reservedOpcode s
  | cRsvdB4 => exact ends_runCompact keeps_reservedOpcode s
  | cRsvdB5 => exact ends_runCompact keeps_reservedOpcode s
  | cRsvdB6 => exact ends_runCompact keeps_reservedOpcode s
  | cRsvdB7 => exact ends_runCompact keeps_reservedOpcode s
  | cSmovTo => exact ends_runCompact (keeps_moveToSystem _ _ _) s
  | cSmovFrom => exact ends_runCompact (keeps_moveFromSystem _ _ _) s
  | cRsvdBA => exact ends_runCompact keeps_reservedOpcode s
  | cRsvdBB => exact ends_runCompact keeps_reservedOpcode s
  | cRsvdBC => exact ends_runCompact keeps_reservedOpcode s
  | cRsvdBD => exact ends_runCompact keeps_reservedOpcode s
  | cRsvdBE => exact ends_runCompact keeps_reservedOpcode s
  | cRsvdBF => exact ends_runCompact keeps_reservedOpcode s
  | cAdd => exact ends_runCompact (keeps_aluRegister _ _ _ _ _) s
  | cSub => exact ends_runCompact (keeps_aluRegister _ _ _ _ _) s
  | cUmul => exact ends_runCompact (keeps_wideRegister _ _ _ _ _) s
  | cSmul => exact ends_runCompact (keeps_wideRegister _ _ _ _ _) s
  | cUdiv => exact ends_runCompact (keeps_divideRegister _ _ _ _ _) s
  | cSdiv => exact ends_runCompact (keeps_divideRegister _ _ _ _ _) s
  | cRsvdC6 => exact ends_runCompact keeps_reservedOpcode s
  | cRsvdC7 => exact ends_runCompact keeps_reservedOpcode s
  | cAnd => exact ends_runCompact (keeps_aluRegister _ _ _ _ _) s
  | cOr => exact ends_runCompact (keeps_aluRegister _ _ _ _ _) s
  | cXor => exact ends_runCompact (keeps_aluRegister _ _ _ _ _) s
  | cShl => exact ends_runCompact (keeps_aluRegister _ _ _ _ _) s
  | cShr => exact ends_runCompact (keeps_aluRegister _ _ _ _ _) s
  | cSar => exact ends_runCompact (keeps_aluRegister _ _ _ _ _) s
  | cRotl => exact ends_runCompact (keeps_aluRegister _ _ _ _ _) s
  | cRotr => exact ends_runCompact (keeps_aluRegister _ _ _ _ _) s
  | cAddN => exact ends_runCompact (keeps_aluImmediate _ _ _ _ _) s
  | cSubN => exact ends_runCompact (keeps_aluImmediate _ _ _ _ _) s
  | cUmulN => exact ends_runCompact (keeps_wideImmediate _ _ _ _ _) s
  | cSmulN => exact ends_runCompact (keeps_wideImmediate _ _ _ _ _) s
  | cUdivN => exact ends_runCompact (keeps_divideImmediate _ _ _ _ _) s
  | cSdivN => exact ends_runCompact (keeps_divideImmediate _ _ _ _ _) s
  | cRsvdD6 => exact ends_runCompact keeps_reservedOpcode s
  | cRsvdD7 => exact ends_runCompact keeps_reservedOpcode s
  | cAndN => exact ends_runCompact (keeps_aluImmediate _ _ _ _ _) s
  | cOrN => exact ends_runCompact (keeps_aluImmediate _ _ _ _ _) s
  | cXorN => exact ends_runCompact (keeps_aluImmediate _ _ _ _ _) s
  | cShlN => exact ends_runCompact (keeps_aluImmediate _ _ _ _ _) s
  | cShrN => exact ends_runCompact (keeps_aluImmediate _ _ _ _ _) s
  | cSarN => exact ends_runCompact (keeps_aluImmediate _ _ _ _ _) s
  | cRotlN => exact ends_runCompact (keeps_aluImmediate _ _ _ _ _) s
  | cRotrN => exact ends_runCompact (keeps_aluImmediate _ _ _ _ _) s
  | cStb => exact ends_runCompact (keeps_storeOffset _ _ _ _ _) s
  | cStbi => exact ends_runCompact (keeps_storeOffset _ _ _ _ _) s
  | cStbp => exact ends_runCompact (keeps_storeOffset _ _ _ _ _) s
  | cStbd => exact ends_runCompact (keeps_storeOffset _ _ _ _ _) s
  | cSth => exact ends_runCompact (keeps_storeOffset _ _ _ _ _) s
  | cSthi => exact ends_runCompact (keeps_storeOffset _ _ _ _ _) s
  | cSthp => exact ends_runCompact (keeps_storeOffset _ _ _ _ _) s
  | cSthd => exact ends_runCompact (keeps_storeOffset _ _ _ _ _) s
  | cStw => exact ends_runCompact (keeps_storeOffset _ _ _ _ _) s
  | cStwi => exact ends_runCompact (keeps_storeOffset _ _ _ _ _) s
  | cStwp => exact ends_runCompact (keeps_storeOffset _ _ _ _ _) s
  | cStwd => exact ends_runCompact (keeps_storeOffset _ _ _ _ _) s
  | cStbx => exact ends_runCompact (keeps_storeIndexed _ _ _ _) s
  | cSthx => exact ends_runCompact (keeps_storeIndexed _ _ _ _) s
  | cStwx => exact ends_runCompact (keeps_storeIndexed _ _ _ _) s
  | cStwxi => exact ends_runCompact (keeps_storeIndexedInc _ _ _) s
  | cLb => exact ends_runCompact (keeps_loadOffset _ _ _ _ _) s
  | cLbi => exact ends_runCompact (keeps_loadOffset _ _ _ _ _) s
  | cLbp => exact ends_runCompact (keeps_loadOffset _ _ _ _ _) s
  | cLbd => exact ends_runCompact (keeps_loadOffset _ _ _ _ _) s
  | cLh => exact ends_runCompact (keeps_loadOffset _ _ _ _ _) s
  | cLhi => exact ends_runCompact (keeps_loadOffset _ _ _ _ _) s
  | cLhp => exact ends_runCompact (keeps_loadOffset _ _ _ _ _) s
  | cLhd => exact ends_runCompact (keeps_loadOffset _ _ _ _ _) s
  | cLw => exact ends_runCompact (keeps_loadOffset _ _ _ _ _) s
  | cLwi => exact ends_runCompact (keeps_loadOffset _ _ _ _ _) s
  | cLwp => exact ends_runCompact (keeps_loadOffset _ _ _ _ _) s
  | cLwd => exact ends_runCompact (keeps_loadOffset _ _ _ _ _) s
  | cLbx => exact ends_runCompact (keeps_loadIndexed _ _ _ _) s
  | cLhx => exact ends_runCompact (keeps_loadIndexed _ _ _ _) s
  | cLwx => exact ends_runCompact (keeps_loadIndexed _ _ _ _) s
  | cLwxi => exact ends_runCompact (keeps_loadIndexedInc _ _ _) s
  | _ => exact absurd h Bool.noConfusion

/-- Every instruction, in every state, ends in one of these ways (60_exceptions.md R255, R260). -/
theorem exec_ends (i : Instr) (s : State) : Ends s (exec i s) := by
  cases h : i.isCompact
  · exact exec_ends_std i h s
  · exact exec_ends_compact i h s

/-! ## What the ends leave -/

/-- The end of an instruction: trap 7, the writes as they are, or the switch to protected mode. -/
theorem conclude_cases (s t : State) :
    s.conclude (.ok t) = s.trapEntry .pcAlign ∨ s.conclude (.ok t) = t ∨
      (s.flagP = false ∧ t.flagP = true ∧ aligned4 t.spc = true ∧ s.conclude (.ok t) = t.exchange) := by
  simp only [State.conclude]
  split_ifs with h1 h2
  · exact .inr (.inr ⟨h1.1, h1.2, h2, rfl⟩)
  · exact .inl rfl
  · exact .inr (.inl rfl)

/-- A trap drops the pending half (46_compact.md R231). -/
@[simp] theorem trapEntry_latch (s : State) (k : Trap) : (s.trapEntry k).latch = none := by
  unfold State.trapEntry
  split_ifs
  · rfl
  · split <;> rfl

/-- An interrupt entry keeps the pending half, unless it fails. -/
theorem interruptEntry_latch (s : State) (k : BitVec 8) :
    (s.interruptEntry k).latch = s.latch ∨ s.interruptEntry k = s.halt := by
  by_cases hc : s.CanEnter s.systemStack k
  · left
    rw [interruptEntry_ok hc]
    simp only [State.enterSystem]
    split_ifs <;> rfl
  · exact .inr (interruptEntry_fails hc)

/-- Setting an implemented bit leaves the reserved bits clear. -/
theorem reserved_setBit {v : Half} (h : v &&& ~~~srMask = 0#16) (i : Nat) (b : Bool)
    (hm : srMask.getLsbD i = true) : setBit v i b &&& ~~~srMask = 0#16 := by
  rw [reserved_iff] at h ⊢
  intro j hj hmj
  rw [getLsbD_setBit]
  split_ifs with e
  · rw [e.1, hm] at hmj
    cases hmj
  · exact h j hj hmj

end Sys2Proof.Machine
end

