-- ==== Sys2Proof/Laws/Step.lean ====
section
/-! SUPPORT. The boundary: what a step does once no event is due. -/

namespace Sys2Proof.Machine

/-- With no event due and F clear, a step is the fetch and the execution (60_exceptions.md R267). -/
theorem step_of_ready {s : State} (h : s.Ready) : step s = fetchAndRun s := by
  obtain ⟨hl, hr, hn, hi, hf⟩ := h
  have hb : step s = boundary s := by
    unfold step stepCycle
    rw [hl]
  rw [hb]
  unfold boundary
  rw [hr]
  dsimp only
  rw [if_neg (by simpa using hn)]
  split
  · rename_i e1 e2
    rcases hi with hi | hi
    · rw [hi] at e1
      cases e1
    · rw [hi] at e2
      cases e2
  · rw [if_neg (by simp [hf])]

/-- A fetched word is run on the state with `pc` moved past it (30_encoding.md R77). -/
theorem step_of_fetches {s : State} {w : Word} (h : s.Fetches w) : step s = runWord w s.advance := by
  obtain ⟨hr, ha, hx, hw⟩ := h
  rw [step_of_ready hr]
  unfold fetchAndRun fetch
  rw [memRead_ok ⟨by rw [misaligned_word, ha]; rfl, hx⟩, hw]

/-- A word stored is the word loaded (20_memory.md R52, R55, R56). -/
theorem loadBytes_storeBytes_word {m : Memory} (h : m.wf = true) (a v : Word) :
    loadBytes (storeBytes m a .word v) a .word = v := by
  obtain ⟨h1, -⟩ := storedAt_storeBytes h a .word v
  have e : ∀ j < 4, readByte (storeBytes m a .word v) (byteAddress a (byteLane 4 j)) = valueByte v j := fun j hj => by
    have hl : byteLane 4 j < 4 := by unfold byteLane; cases byteOrder <;> simp <;> omega
    have hb : byteLane 4 (byteLane 4 j) = j := by unfold byteLane; cases byteOrder <;> simp; omega
    rw [h1 _ hl]
    exact congrArg _ hb
  simp only [loadBytes, e 0 (by decide), e 1 (by decide), e 2 (by decide), e 3 (by decide), valueByte]
  apply BitVec.eq_of_getLsbD_eq
  intro i hi
  simp (disch := omega) only [BitVec.getLsbD_append, BitVec.getLsbD_extractLsb']
  grind

end Sys2Proof.Machine
end

