-- ==== Sys2Proof/Tests/Slice0.lean ====
section
/-! SUPPORT. The model's own tests: the well-formedness check, the decoding of a word of every constructor, one step on
worked examples of 95_test_vectors.md, and for each statement that has hypotheses a state and operands that meet them. -/

namespace Sys2Proof.Tests

open Sys2Proof.Machine Sys2Proof.Rows

/-! ## Small states -/

/-- The unconditional guard, `cccc = 0000`. -/
abbrev al : Guard := .always

/-- The guard "not equal" on cc2: the condition byte is 00 10 1100. -/
def ifNe : Guard := ⟨.ne, 2⟩

/-- Words written into a memory. -/
def poke (m : Memory) (l : List (Word × Word)) : Memory := l.foldl (fun m p => storeBytes m p.1 .word p.2) m

/-- The vector table of the common start state (95_test_vectors.md): entry k is 0x900 + 0x10 k. -/
def vectors : List (Word × Word) :=
  [(4, 0x910), (8, 0x920), (12, 0x930), (16, 0x940), (20, 0x950), (24, 0x960), (28, 0x970), (32, 0x980), (36, 0x990)]

/-- A word at `pc`, system mode, `isp` = 0x1000, `dsp` = 0x2000, with some registers and some words of memory. -/
def startAt (pc w : Word) (regs : List (Reg × Word)) (mem : List (Word × Word)) : State :=
  regs.foldl (fun s p => s.setGeneral p.1 p.2)
    { State.reset with
      sr := 0, pc := pc, isp := 0x1000, dsp := 0x2000, mem := poke (poke (poke [] vectors) mem) [(pc, w)] }

/-- The same with `pc` = 0x100. -/
def start (w : Word) (regs : List (Reg × Word)) (mem : List (Word × Word)) : State := startAt 0x100 w regs mem

/-- The start state of the store examples. -/
def startStore (w : Word) (regs : List (Reg × Word)) (mem : List (Word × Word)) : State :=
  start w ([(1, 0x2000), (2, 0x11223344)] ++ regs) ([(0x2000, 0xAAAAAAAA), (0x2004, 0xBBBBBBBB)] ++ mem)

/-- The start state of the load examples. -/
def startLoad (w : Word) (regs : List (Reg × Word)) (mem : List (Word × Word)) : State :=
  start w ([(1, 0xFFFFFFFF), (2, 0x2000)] ++ regs)
    ([(0x1FFC, 0x9ABCDEF0), (0x2000, 0x80C0E0F1), (0x2004, 0x12345678)] ++ mem)

/-- An outcome is a next state that satisfies `f`. -/
def answers (o : Host.Outcome State Fault Refusal) (f : State → Bool) : Bool :=
  match o with
  | .next t => f t
  | .fault _ => false
  | .refused _ => false

/-- One step answers a next state that satisfies `f`. -/
def holds (s : State) (f : State → Bool) : Bool := answers (step s) f

/-- System mode, r0 = 5, r1 = 7, two words of data. -/
def sys : State := start 0x40000102 [(0, 5), (1, 7)] [(0x2000, 0x80C0E0F1), (0x2004, 0xBBBBBBBB)]

/-- Protected mode, r0 = 5, r1 = 0x2C3. -/
def user : State := { sys with r := sys.r.set 1 0x2C3, sr := 0x0200, ssp := 0x8000, spc := 0x10C }

/-- Protected mode with S set. -/
def strict : State := { user with sr := 0x0600 }

/-- System mode about to set P: r0 = 0x200. -/
def toUser : State := { sys with r := sys.r.set 0 0x200, ssp := 0x7000, spc := 0x4000 }

/-- `s` on a platform that lets one kind of access fail at one address. -/
def failingAt (kind : AccessKind) (bytes a : Nat) (s : State) : State := { s with failing := [⟨kind, bytes, a, a⟩] }

/-! ## Well-formedness -/

/-- "cccc = 0000 needs rr = 00" (R81): each nonzero `rr` is refused, on any standard instruction. -/
theorem test_wellFormed_refuses :
    (Instr.add ⟨.al, 1⟩ 2 0 1).wellFormed = false ∧ (Instr.brk ⟨.al, 2⟩).wellFormed = false ∧
    (Instr.rsvd00 ⟨.al, 3⟩ 7 0xFFFF).wellFormed = false := by decide

theorem test_wellFormed_accepts :
    (Instr.add ⟨.al, 0⟩ 2 0 1).wellFormed = true ∧ (Instr.add ⟨.nv, 3⟩ 2 0 1).wellFormed = true ∧
    (Instr.cAdd 15 15).wellFormed = true := by decide

/-! ## Decoding

The words are written out from 30_encoding.md R71 to R76 and R90, with the condition byte 0x2C (`rr` = 10, "not
equal"), x = 1, y = 2, z = 3 and the immediates 0xC8, 0xABC, 0x8001; compact: q = 9, w = 4. -/

theorem test_decode_zero_operand :
    [
      0x052CBEEF#32, 0x082C0000#32, 0x092C0000#32, 0x0A2C0000#32, 0x0B2C0000#32, 0x0C2CBEEF#32, 0x0D2CBEEF#32,
      0x0E2CBEEF#32, 0x0F2C0000#32].map decodeStd = [
      .ok (.rsvd00 ifNe 5 0xBEEF), .ok (.ret ifNe), .ok (.fret ifNe), .ok (.sleep ifNe), .ok (.rfi ifNe),
      .ok (.rsvd0C ifNe 0xBEEF), .ok (.rsvd0D ifNe 0xBEEF), .ok (.rsvd0E ifNe 0xBEEF), .ok (.brk ifNe)] := rfl

theorem test_decode_one_operand :
    [
      0x102C8001#32, 0x112C8001#32, 0x122C8001#32, 0x132C8001#32, 0x142C8001#32, 0x152C8001#32, 0x162C8001#32,
      0x172C8001#32, 0x182C8001#32, 0x192C0003#32, 0x1A2C8001#32, 0x1B2C8001#32, 0x1C2C0003#32, 0x1D2C0003#32,
      0x1E2C0003#32, 0x1F2C0003#32].map decodeStd = [
      .ok (.ba ifNe 0x8001), .ok (.br ifNe 0x8001), .ok (.jf ifNe 0x8001), .ok (.last ifNe 0x8001),
      .ok (.call ifNe 0x8001), .ok (.callr ifNe 0x8001), .ok (.fcall ifNe 0x8001), .ok (.fcallr ifNe 0x8001),
      .ok (.int ifNe 0x8001), .ok (.intX ifNe 3), .ok (.lil ifNe 0x8001), .ok (.lih ifNe 0x8001),
      .ok (.callX ifNe 3), .ok (.callrX ifNe 3), .ok (.fcallX ifNe 3), .ok (.fcallrX ifNe 3)] := rfl

theorem test_decode_two_operand :
    [
      0x202C0021#32, 0x212C0021#32, 0x222C0021#32, 0x232C0021#32, 0x242C0021#32, 0x252C0021#32, 0x262C0021#32,
      0x272C0021#32, 0x282CBEEF#32, 0x292CBEEF#32, 0x2A2CBEEF#32, 0x2B2CBEEF#32, 0x2C2C0021#32, 0x2D2C0021#32,
      0x2E2C0021#32, 0x2F2C0021#32].map decodeStd = [
      .ok (.mov ifNe 1 2), .ok (.swp ifNe 1 2), .ok (.not ifNe 1 2), .ok (.cmp ifNe 1 2), .ok (.sxb ifNe 1 2),
      .ok (.sxw ifNe 1 2), .ok (.zxb ifNe 1 2), .ok (.zxw ifNe 1 2), .ok (.rsvd28 ifNe 0xBEEF),
      .ok (.rsvd29 ifNe 0xBEEF), .ok (.rsvd2A ifNe 0xBEEF), .ok (.rsvd2B ifNe 0xBEEF), .ok (.mvhh ifNe 1 2),
      .ok (.mvhl ifNe 1 2), .ok (.mvlh ifNe 1 2), .ok (.mvll ifNe 1 2)] := rfl

theorem test_decode_two_operand_immediate :
    [
      0x302CABC1#32, 0x312CABC1#32, 0x322CBEEF#32, 0x332CBEEF#32, 0x342CBEEF#32, 0x352CBEEF#32, 0x362CBEEF#32,
      0x372CBEEF#32, 0x382C0021#32, 0x392C0021#32, 0x3A2CBEEF#32, 0x3B2CBEEF#32, 0x3C2CBEEF#32, 0x3D2CBEEF#32,
      0x3E2CBEEF#32, 0x3F2CBEEF#32].map decodeStd = [
      .ok (.addN12 ifNe 1 0xABC), .ok (.subN12 ifNe 1 0xABC), .ok (.rsvd32 ifNe 0xBEEF), .ok (.rsvd33 ifNe 0xBEEF),
      .ok (.rsvd34 ifNe 0xBEEF), .ok (.rsvd35 ifNe 0xBEEF), .ok (.rsvd36 ifNe 0xBEEF), .ok (.rsvd37 ifNe 0xBEEF),
      .ok (.smovTo ifNe 1 2), .ok (.smovFrom ifNe 1 2), .ok (.rsvd3A ifNe 0xBEEF), .ok (.rsvd3B ifNe 0xBEEF),
      .ok (.rsvd3C ifNe 0xBEEF), .ok (.rsvd3D ifNe 0xBEEF), .ok (.rsvd3E ifNe 0xBEEF), .ok (.rsvd3F ifNe 0xBEEF)] := rfl

theorem test_decode_alu_register :
    [
      0x402C0321#32, 0x412C0321#32, 0x422C0321#32, 0x432C0321#32, 0x442C0321#32, 0x452C0321#32, 0x462CBEEF#32,
      0x472CBEEF#32, 0x482C0321#32, 0x492C0321#32, 0x4A2C0321#32, 0x4B2C0321#32, 0x4C2C0321#32, 0x4D2C0321#32,
      0x4E2C0321#32, 0x4F2C0321#32].map decodeStd = [
      .ok (.add ifNe 1 2 3), .ok (.sub ifNe 1 2 3), .ok (.umul ifNe 1 2 3), .ok (.smul ifNe 1 2 3),
      .ok (.udiv ifNe 1 2 3), .ok (.sdiv ifNe 1 2 3), .ok (.rsvd46 ifNe 0xBEEF), .ok (.rsvd47 ifNe 0xBEEF),
      .ok (.and ifNe 1 2 3), .ok (.or ifNe 1 2 3), .ok (.xor ifNe 1 2 3), .ok (.shl ifNe 1 2 3),
      .ok (.shr ifNe 1 2 3), .ok (.sar ifNe 1 2 3), .ok (.rotl ifNe 1 2 3), .ok (.rotr ifNe 1 2 3)] := rfl

theorem test_decode_alu_immediate :
    [
      0x502CC821#32, 0x512CC821#32, 0x522CC821#32, 0x532CC821#32, 0x542CC821#32, 0x552CC821#32, 0x562CBEEF#32,
      0x572CBEEF#32, 0x582CC821#32, 0x592CC821#32, 0x5A2CC821#32, 0x5B2CC821#32, 0x5C2CC821#32, 0x5D2CC821#32,
      0x5E2CC821#32, 0x5F2CC821#32].map decodeStd = [
      .ok (.addN ifNe 1 2 0xC8), .ok (.subN ifNe 1 2 0xC8), .ok (.umulN ifNe 1 2 0xC8), .ok (.smulN ifNe 1 2 0xC8),
      .ok (.udivN ifNe 1 2 0xC8), .ok (.sdivN ifNe 1 2 0xC8), .ok (.rsvd56 ifNe 0xBEEF), .ok (.rsvd57 ifNe 0xBEEF),
      .ok (.andN ifNe 1 2 0xC8), .ok (.orN ifNe 1 2 0xC8), .ok (.xorN ifNe 1 2 0xC8), .ok (.shlN ifNe 1 2 0xC8),
      .ok (.shrN ifNe 1 2 0xC8), .ok (.sarN ifNe 1 2 0xC8), .ok (.rotlN ifNe 1 2 0xC8), .ok (.rotrN ifNe 1 2 0xC8)] := rfl

theorem test_decode_store :
    [
      0x602CC821#32, 0x612CC821#32, 0x622CC821#32, 0x632CC821#32, 0x642CC821#32, 0x652CC821#32, 0x662CC821#32,
      0x672CC821#32, 0x682CC821#32, 0x692CC821#32, 0x6A2CC821#32, 0x6B2CC821#32, 0x6C2C0321#32, 0x6D2C0321#32,
      0x6E2C0321#32, 0x6F2C0321#32].map decodeStd = [
      .ok (.stb ifNe 1 2 0xC8), .ok (.stbi ifNe 1 2 0xC8), .ok (.stbp ifNe 1 2 0xC8), .ok (.stbd ifNe 1 2 0xC8),
      .ok (.sth ifNe 1 2 0xC8), .ok (.sthi ifNe 1 2 0xC8), .ok (.sthp ifNe 1 2 0xC8), .ok (.sthd ifNe 1 2 0xC8),
      .ok (.stw ifNe 1 2 0xC8), .ok (.stwi ifNe 1 2 0xC8), .ok (.stwp ifNe 1 2 0xC8), .ok (.stwd ifNe 1 2 0xC8),
      .ok (.stbx ifNe 1 2 3), .ok (.sthx ifNe 1 2 3), .ok (.stwx ifNe 1 2 3), .ok (.stwxi ifNe 1 2 3)] := rfl

theorem test_decode_load :
    [
      0x702CC821#32, 0x712CC821#32, 0x722CC821#32, 0x732CC821#32, 0x742CC821#32, 0x752CC821#32, 0x762CC821#32,
      0x772CC821#32, 0x782CC821#32, 0x792CC821#32, 0x7A2CC821#32, 0x7B2CC821#32, 0x7C2C0321#32, 0x7D2C0321#32,
      0x7E2C0321#32, 0x7F2C0321#32].map decodeStd = [
      .ok (.lb ifNe 1 2 0xC8), .ok (.lbi ifNe 1 2 0xC8), .ok (.lbp ifNe 1 2 0xC8), .ok (.lbd ifNe 1 2 0xC8),
      .ok (.lh ifNe 1 2 0xC8), .ok (.lhi ifNe 1 2 0xC8), .ok (.lhp ifNe 1 2 0xC8), .ok (.lhd ifNe 1 2 0xC8),
      .ok (.lw ifNe 1 2 0xC8), .ok (.lwi ifNe 1 2 0xC8), .ok (.lwp ifNe 1 2 0xC8), .ok (.lwd ifNe 1 2 0xC8),
      .ok (.lbx ifNe 1 2 3), .ok (.lhx ifNe 1 2 3), .ok (.lwx ifNe 1 2 3), .ok (.lwxi ifNe 1 2 3)] := rfl

theorem test_decode_compact_reserved :
    [
      0x8694#16].map decodeHalf = [
      .ok (.cRsvd80 6 0x94)] := rfl

theorem test_decode_compact_one :
    [
      0x9094#16, 0x9194#16, 0x9294#16, 0x9394#16, 0x9494#16, 0x9594#16, 0x9694#16, 0x9794#16, 0x9894#16, 0x9994#16,
      0x9A94#16, 0x9B94#16, 0x9C94#16, 0x9D94#16, 0x9E94#16, 0x9F94#16].map decodeHalf = [
      .ok (.cBa 0x94), .ok (.cBr 0x94), .ok (.cJf 0x94), .ok (.cLast 0x94), .ok (.cCall 0x94), .ok (.cCallr 0x94),
      .ok (.cFcall 0x94), .ok (.cFcallr 0x94), .ok (.cInt 0x94), .ok (.cIntX 9 4), .ok (.cLil 0x94),
      .ok (.cLih 0x94), .ok (.cCallX 9 4), .ok (.cCallrX 9 4), .ok (.cFcallX 9 4), .ok (.cFcallrX 9 4)] := rfl

theorem test_decode_compact_two :
    [
      0xA094#16, 0xA194#16, 0xA294#16, 0xA394#16, 0xA494#16, 0xA594#16, 0xA694#16, 0xA794#16, 0xA894#16, 0xA994#16,
      0xAA94#16, 0xAB94#16, 0xAC94#16, 0xAD94#16, 0xAE94#16, 0xAF94#16].map decodeHalf = [
      .ok (.cMov 4 9), .ok (.cSwp 4 9), .ok (.cNot 4 9), .ok (.cCmp 4 9), .ok (.cSxb 4 9), .ok (.cSxw 4 9),
      .ok (.cZxb 4 9), .ok (.cZxw 4 9), .ok (.cRsvdA8 0x94), .ok (.cRsvdA9 0x94), .ok (.cRsvdAA 0x94),
      .ok (.cRsvdAB 0x94), .ok (.cMvhh 4 9), .ok (.cMvhl 4 9), .ok (.cMvlh 4 9), .ok (.cMvll 4 9)] := rfl

theorem test_decode_compact_two_immediate :
    [
      0xB094#16, 0xB194#16, 0xB294#16, 0xB394#16, 0xB494#16, 0xB594#16, 0xB694#16, 0xB794#16, 0xB894#16, 0xB994#16,
      0xBA94#16, 0xBB94#16, 0xBC94#16, 0xBD94#16, 0xBE94#16, 0xBF94#16].map decodeHalf = [
      .ok (.cAddN12 4 9), .ok (.cSubN12 4 9), .ok (.cRsvdB2 0x94), .ok (.cRsvdB3 0x94), .ok (.cRsvdB4 0x94),
      .ok (.cRsvdB5 0x94), .ok (.cRsvdB6 0x94), .ok (.cRsvdB7 0x94), .ok (.cSmovTo 4 9), .ok (.cSmovFrom 4 9),
      .ok (.cRsvdBA 0x94), .ok (.cRsvdBB 0x94), .ok (.cRsvdBC 0x94), .ok (.cRsvdBD 0x94), .ok (.cRsvdBE 0x94),
      .ok (.cRsvdBF 0x94)] := rfl

theorem test_decode_compact_alu_register :
    [
      0xC094#16, 0xC194#16, 0xC294#16, 0xC394#16, 0xC494#16, 0xC594#16, 0xC694#16, 0xC794#16, 0xC894#16, 0xC994#16,
      0xCA94#16, 0xCB94#16, 0xCC94#16, 0xCD94#16, 0xCE94#16, 0xCF94#16].map decodeHalf = [
      .ok (.cAdd 4 9), .ok (.cSub 4 9), .ok (.cUmul 4 9), .ok (.cSmul 4 9), .ok (.cUdiv 4 9), .ok (.cSdiv 4 9),
      .ok (.cRsvdC6 0x94), .ok (.cRsvdC7 0x94), .ok (.cAnd 4 9), .ok (.cOr 4 9), .ok (.cXor 4 9), .ok (.cShl 4 9),
      .ok (.cShr 4 9), .ok (.cSar 4 9), .ok (.cRotl 4 9), .ok (.cRotr 4 9)] := rfl

theorem test_decode_compact_alu_immediate :
    [
      0xD094#16, 0xD194#16, 0xD294#16, 0xD394#16, 0xD494#16, 0xD594#16, 0xD694#16, 0xD794#16, 0xD894#16, 0xD994#16,
      0xDA94#16, 0xDB94#16, 0xDC94#16, 0xDD94#16, 0xDE94#16, 0xDF94#16].map decodeHalf = [
      .ok (.cAddN 4 9), .ok (.cSubN 4 9), .ok (.cUmulN 4 9), .ok (.cSmulN 4 9), .ok (.cUdivN 4 9), .ok (.cSdivN 4 9),
      .ok (.cRsvdD6 0x94), .ok (.cRsvdD7 0x94), .ok (.cAndN 4 9), .ok (.cOrN 4 9), .ok (.cXorN 4 9),
      .ok (.cShlN 4 9), .ok (.cShrN 4 9), .ok (.cSarN 4 9), .ok (.cRotlN 4 9), .ok (.cRotrN 4 9)] := rfl

theorem test_decode_compact_store :
    [
      0xE094#16, 0xE194#16, 0xE294#16, 0xE394#16, 0xE494#16, 0xE594#16, 0xE694#16, 0xE794#16, 0xE894#16, 0xE994#16,
      0xEA94#16, 0xEB94#16, 0xEC94#16, 0xED94#16, 0xEE94#16, 0xEF94#16].map decodeHalf = [
      .ok (.cStb 9 4), .ok (.cStbi 9 4), .ok (.cStbp 9 4), .ok (.cStbd 9 4), .ok (.cSth 9 4), .ok (.cSthi 9 4),
      .ok (.cSthp 9 4), .ok (.cSthd 9 4), .ok (.cStw 9 4), .ok (.cStwi 9 4), .ok (.cStwp 9 4), .ok (.cStwd 9 4),
      .ok (.cStbx 4 9), .ok (.cSthx 4 9), .ok (.cStwx 4 9), .ok (.cStwxi 4 9)] := rfl

theorem test_decode_compact_load :
    [
      0xF094#16, 0xF194#16, 0xF294#16, 0xF394#16, 0xF494#16, 0xF594#16, 0xF694#16, 0xF794#16, 0xF894#16, 0xF994#16,
      0xFA94#16, 0xFB94#16, 0xFC94#16, 0xFD94#16, 0xFE94#16, 0xFF94#16].map decodeHalf = [
      .ok (.cLb 9 4), .ok (.cLbi 9 4), .ok (.cLbp 9 4), .ok (.cLbd 9 4), .ok (.cLh 9 4), .ok (.cLhi 9 4),
      .ok (.cLhp 9 4), .ok (.cLhd 9 4), .ok (.cLw 9 4), .ok (.cLwi 9 4), .ok (.cLwp 9 4), .ok (.cLwd 9 4),
      .ok (.cLbx 4 9), .ok (.cLhx 4 9), .ok (.cLwx 4 9), .ok (.cLwxi 4 9)] := rfl

/-- The fifteen condition codes (R82), and the encodings that the condition byte reserves (R87). -/
theorem test_decode_guard :
    [0x00000000#32, 0x00010000#32, 0x00120000#32, 0x00230000#32, 0x00340000#32, 0x00050000#32, 0x00160000#32,
      0x00280000#32, 0x00390000#32, 0x000A0000#32, 0x001B0000#32, 0x002C0000#32, 0x003D0000#32, 0x000E0000#32,
      0x001F0000#32, 0x00400000#32, 0x00870000#32, 0x00070000#32, 0x00100000#32].map decodeGuard = [
      .ok ⟨.al, 0⟩, .ok ⟨.vs, 0⟩, .ok ⟨.cs, 1⟩, .ok ⟨.hi, 2⟩, .ok ⟨.eq, 3⟩, .ok ⟨.mi, 0⟩, .ok ⟨.gt, 1⟩,
      .ok ⟨.nv, 2⟩, .ok ⟨.vc, 3⟩, .ok ⟨.cc, 0⟩, .ok ⟨.ls, 1⟩, .ok ⟨.ne, 2⟩, .ok ⟨.pl, 3⟩, .ok ⟨.le, 0⟩,
      .ok ⟨.f, 1⟩, .error .reservedV, .error .reservedV, .error .reservedCond, .error .rrNotZero] := rfl

theorem test_decode_rejects :
    decodeStd 0x80000000#32 = .error .compactWord ∧ decodeHalf 0x7FFF#16 = .error .markerClear ∧
    decodeStd 0x08000001#32 = .error (.mustBeZero ⟨.al, 0⟩) ∧ decodeTableWord 32 0x40000102 = some (.add ⟨.al, 0⟩ 2 0 1) ∧
    decodeTableWord 16 0xC021 = some (.cAdd 1 2) ∧ decodeTableWord 24 0 = none :=
  ⟨rfl, rfl, rfl, rfl, rfl, rfl⟩

/-! ## One step

Each example is the one of 95_test_vectors.md that its name gives. -/

theorem test_A3_add :
    holds (start 0x40000102 [(0, 0xffffffff), (1, 1)] []) (fun t => t.sr == 0x3 && t.pc == 0x104) = true := by decide
theorem test_A6_add :
    holds ({ start 0x402f0102 [(0, 0xffffffff), (1, 1)] [] with sr := 0x80 })
      (fun t => t.readReg 11 == 0x3 && t.sr == 0x80 && t.pc == 0x104) = true := by decide
theorem test_A7_add :
    holds (start 0x40040102 [(0, 5), (1, 7), (10, 0)] []) (fun t => t.sr == 0x0 && t.pc == 0x104) = true := by decide
theorem test_A11_add :
    holds (start 0x400001ff [(1, 2)] [])
      (fun t => t.isp == 0xff8 && t.sr == 0x800 && t.pc == 0x970 &&
        loadBytes t.mem 0xffc .word == 0x104) = true := by decide
theorem test_A15_sub :
    holds (start 0x41000102 [(0, 0x80000000), (1, 1)] [])
      (fun t => t.readReg 2 == 0x7fffffff && t.sr == 0x42 && t.pc == 0x104) = true := by decide
theorem test_A17_umul :
    holds (start 0x42000102 [(0, 0xffffffff), (1, 0xffffffff)] [])
      (fun t => t.readReg 2 == 0x1 && t.readReg 10 == 0xfffffffe && t.sr == 0x82 && t.pc == 0x104) = true := by decide
theorem test_A19_umul :
    holds (start 0x4200010a [(0, 0x10000), (1, 0x10003)] [])
      (fun t => t.readReg 10 == 0x1 && t.sr == 0x2 && t.pc == 0x104) = true := by decide
theorem test_A20_smul :
    holds (start 0x43000102 [(0, 0xfffffffe), (1, 3)] [])
      (fun t => t.readReg 2 == 0xfffffffa && t.readReg 10 == 0xffffffff && t.sr == 0x80 &&
        t.pc == 0x104) = true := by decide
theorem test_A22_udiv :
    holds (start 0x44000102 [(0, 7), (1, 2)] [])
      (fun t => t.readReg 2 == 0x3 && t.readReg 10 == 0x1 && t.sr == 0x0 && t.pc == 0x104) = true := by decide
theorem test_A24_udiv :
    holds ({ start 0x44000102 [(0, 7), (1, 0), (2, 0x55), (10, 0x66)] [] with sr := 0x3 })
      (fun t => t.isp == 0xff8 && t.sr == 0x803 && t.pc == 0x940 && loadBytes t.mem 0xff8 .word == 0x3 &&
        loadBytes t.mem 0xffc .word == 0x104) = true := by decide
theorem test_A25_sdiv :
    holds (start 0x45000102 [(0, 0xfffffff9), (1, 2)] [])
      (fun t => t.readReg 2 == 0xfffffffd && t.readReg 10 == 0xffffffff && t.sr == 0x80 &&
        t.pc == 0x104) = true := by decide
theorem test_A29_and :
    holds ({ start 0x48000102 [(0, 0xff00ff00), (1, 0xff00ff0)] [] with sr := 0x42 })
      (fun t => t.readReg 2 == 0xf000f00 && t.sr == 0x42 && t.pc == 0x104) = true := by decide
theorem test_A30_or :
    holds (start 0x49000102 [(0, 0x80000000), (1, 1)] [])
      (fun t => t.readReg 2 == 0x80000001 && t.sr == 0x80 && t.pc == 0x104) = true := by decide
theorem test_A31_xor :
    holds (start 0x4a000002 [(0, 0x12345678)] []) (fun t => t.sr == 0x1 && t.pc == 0x104) = true := by decide
theorem test_A32_or :
    holds (start 0x4900010e [(0, 0x100), (1, 0x40)] []) (fun t => t.sr == 0x140 && t.pc == 0x104) = true := by decide
theorem test_A33_shl :
    holds (start 0x4b000102 [(0, 0x80000001), (1, 1)] [])
      (fun t => t.readReg 2 == 0x2 && t.sr == 0x2 && t.pc == 0x104) = true := by decide
theorem test_A37_shr :
    holds ({ start 0x4c000102 [(0, 0x80000003), (1, 1)] [] with sr := 0x80 })
      (fun t => t.readReg 2 == 0x40000001 && t.sr == 0x2 && t.pc == 0x104) = true := by decide
theorem test_A39_sar :
    holds (start 0x4d000102 [(0, 0x80000000), (1, 0x1f)] [])
      (fun t => t.readReg 2 == 0xffffffff && t.sr == 0x80 && t.pc == 0x104) = true := by decide
theorem test_A41_rotl :
    holds (start 0x4e000102 [(0, 0x80000001), (1, 4)] [])
      (fun t => t.readReg 2 == 0x18 && t.sr == 0x0 && t.pc == 0x104) = true := by decide
theorem test_A43_rotr :
    holds (start 0x4f000102 [(0, 0x80000001), (1, 4)] [])
      (fun t => t.readReg 2 == 0x18000000 && t.sr == 0x0 && t.pc == 0x104) = true := by decide
theorem test_A44_reserved :
    holds (start 0x46000102 [(0, 1), (1, 1)] [])
      (fun t => t.isp == 0xff8 && t.sr == 0x800 && t.pc == 0x920 &&
        loadBytes t.mem 0xffc .word == 0x104) = true := by decide
theorem test_A45_add :
    holds (start 0x40001102 [(0, 1), (1, 1)] [])
      (fun t => t.isp == 0xff8 && t.sr == 0x800 && t.pc == 0x920 &&
        loadBytes t.mem 0xffc .word == 0x104) = true := by decide
theorem test_A48_add :
    holds (start 0x40070102 [(0, 1), (1, 1)] [])
      (fun t => t.isp == 0xff8 && t.sr == 0x800 && t.pc == 0x920 &&
        loadBytes t.mem 0xffc .word == 0x104) = true := by decide
theorem test_AI1_add :
    holds (start 0x5000c801 [(0, 0x64)] [])
      (fun t => t.readReg 1 == 0x12c && t.sr == 0x0 && t.pc == 0x104) = true := by decide
theorem test_AI3_sub :
    holds (start 0x51000101 [(0, 0)] [])
      (fun t => t.readReg 1 == 0xffffffff && t.sr == 0x80 && t.pc == 0x104) = true := by decide
theorem test_AI5_umul :
    holds (start 0x5200ff01 [(0, 0x1010101)] [])
      (fun t => t.readReg 1 == 0xffffffff && t.sr == 0x0 && t.pc == 0x104) = true := by decide
theorem test_AI6_smul :
    holds (start 0x53000301 [(0, 0xfffffffe)] [])
      (fun t => t.readReg 1 == 0xfffffffa && t.readReg 10 == 0xffffffff && t.sr == 0x80 &&
        t.pc == 0x104) = true := by decide
theorem test_AI7_udiv :
    holds (start 0x54000a01 [(0, 0x4d2)] [])
      (fun t => t.readReg 1 == 0x7b && t.readReg 10 == 0x4 && t.sr == 0x0 && t.pc == 0x104) = true := by decide
theorem test_AI9_sdiv :
    holds (start 0x55000a01 [(0, 0xfffffb2e)] [])
      (fun t => t.readReg 1 == 0xffffff85 && t.readReg 10 == 0xfffffffc && t.sr == 0x80 &&
        t.pc == 0x104) = true := by decide
theorem test_AI10_and :
    holds (start 0x58000f01 [(0, 0x12345678)] [])
      (fun t => t.readReg 1 == 0x8 && t.sr == 0x0 && t.pc == 0x104) = true := by decide
theorem test_AI11_or :
    holds (start 0x59008001 [(0, 0)] [])
      (fun t => t.readReg 1 == 0x80 && t.sr == 0x0 && t.pc == 0x104) = true := by decide
theorem test_AI12_xor :
    holds (start 0x5a00ff01 [(0, 0xff)] []) (fun t => t.sr == 0x1 && t.pc == 0x104) = true := by decide
theorem test_AI13_shl :
    holds (start 0x5b000401 [(0, 0x12345678)] [])
      (fun t => t.readReg 1 == 0x23456780 && t.sr == 0x2 && t.pc == 0x104) = true := by decide
theorem test_AI15_shr :
    holds (start 0x5c000801 [(0, 0x12345678)] [])
      (fun t => t.readReg 1 == 0x123456 && t.sr == 0x0 && t.pc == 0x104) = true := by decide
theorem test_AI16_sar :
    holds (start 0x5d000801 [(0, 0x87654321)] [])
      (fun t => t.readReg 1 == 0xff876543 && t.sr == 0x80 && t.pc == 0x104) = true := by decide
theorem test_AI17_rotl :
    holds (start 0x5e000801 [(0, 0x12345678)] [])
      (fun t => t.readReg 1 == 0x34567812 && t.sr == 0x0 && t.pc == 0x104) = true := by decide
theorem test_AI18_rotr :
    holds (start 0x5f000801 [(0, 0x12345678)] [])
      (fun t => t.readReg 1 == 0x78123456 && t.sr == 0x0 && t.pc == 0x104) = true := by decide
theorem test_AI19_reserved :
    holds (start 0x57000801 [] [])
      (fun t => t.isp == 0xff8 && t.sr == 0x800 && t.pc == 0x920 &&
        loadBytes t.mem 0xffc .word == 0x104) = true := by decide
theorem test_S1_stb :
    holds (startStore 0x60000421 [] [])
      (fun t => t.sr == 0x0 && t.pc == 0x104 && loadBytes t.mem 0x2004 .word == 0xbbbbbb44) = true := by decide
theorem test_S3_stbi :
    holds (startStore 0x61000421 [] [])
      (fun t => t.readReg 1 == 0x2001 && t.sr == 0x0 && t.pc == 0x104 &&
        loadBytes t.mem 0x2004 .word == 0xbbbbbb44) = true := by decide
theorem test_S4_stbp :
    holds (startStore 0x62000421 [] [])
      (fun t => t.readReg 1 == 0x1fff && t.sr == 0x0 && t.pc == 0x104 &&
        loadBytes t.mem 0x2000 .word == 0x44aaaaaa) = true := by decide
theorem test_S5_stbd :
    holds (startStore 0x63000421 [] [])
      (fun t => t.readReg 1 == 0x1fff && t.sr == 0x0 && t.pc == 0x104 &&
        loadBytes t.mem 0x2004 .word == 0xbbbbbb44) = true := by decide
theorem test_S6_sth :
    holds (startStore 0x64000421 [] [])
      (fun t => t.sr == 0x0 && t.pc == 0x104 && loadBytes t.mem 0x2004 .word == 0xbbbb3344) = true := by decide
theorem test_S9_sthi :
    holds (startStore 0x65000421 [] [])
      (fun t => t.readReg 1 == 0x2002 && t.sr == 0x0 && t.pc == 0x104 &&
        loadBytes t.mem 0x2004 .word == 0xbbbb3344) = true := by decide
theorem test_S10_sthp :
    holds (startStore 0x66000421 [] [])
      (fun t => t.readReg 1 == 0x1ffe && t.sr == 0x0 && t.pc == 0x104 &&
        loadBytes t.mem 0x2000 .word == 0x3344aaaa) = true := by decide
theorem test_S11_sthd :
    holds (startStore 0x67000421 [] [])
      (fun t => t.readReg 1 == 0x1ffe && t.sr == 0x0 && t.pc == 0x104 &&
        loadBytes t.mem 0x2004 .word == 0xbbbb3344) = true := by decide
theorem test_S12_stw :
    holds (startStore 0x68000421 [] [])
      (fun t => t.sr == 0x0 && t.pc == 0x104 && loadBytes t.mem 0x2004 .word == 0x11223344) = true := by decide
theorem test_S16_stwi :
    holds (startStore 0x69000421 [] [])
      (fun t => t.readReg 1 == 0x2004 && t.sr == 0x0 && t.pc == 0x104 &&
        loadBytes t.mem 0x2004 .word == 0x11223344) = true := by decide
theorem test_S19_stwp :
    holds (startStore 0x6a000421 [] [])
      (fun t => t.readReg 1 == 0x1ffc && t.sr == 0x0 && t.pc == 0x104 &&
        loadBytes t.mem 0x2000 .word == 0x11223344) = true := by decide
theorem test_S22_stwd :
    holds (startStore 0x6b000421 [] [])
      (fun t => t.readReg 1 == 0x1ffc && t.sr == 0x0 && t.pc == 0x104 &&
        loadBytes t.mem 0x2004 .word == 0x11223344) = true := by decide
theorem test_S23_stbx :
    holds (startStore 0x6c000321 [(3, 4)] [])
      (fun t => t.sr == 0x0 && t.pc == 0x104 && loadBytes t.mem 0x2004 .word == 0xbbbbbb44) = true := by decide
theorem test_S24_sthx :
    holds (startStore 0x6d000321 [(3, 4)] [])
      (fun t => t.sr == 0x0 && t.pc == 0x104 && loadBytes t.mem 0x2004 .word == 0xbbbb3344) = true := by decide
theorem test_S26_stwx :
    holds (startStore 0x6e000321 [(3, 0xfffffffc)] [])
      (fun t => t.sr == 0x0 && t.pc == 0x104 && loadBytes t.mem 0x1ffc .word == 0x11223344) = true := by decide
theorem test_S27_stwxi :
    holds (startStore 0x6f000321 [(3, 4)] [])
      (fun t => t.readReg 3 == 0x8 && t.sr == 0x0 && t.pc == 0x104 &&
        loadBytes t.mem 0x2004 .word == 0x11223344) = true := by decide
theorem test_L1_lb :
    holds (startLoad 0x70000421 [] [])
      (fun t => t.readReg 1 == 0xffffff78 && t.sr == 0x0 && t.pc == 0x104) = true := by decide
theorem test_L3_lbi :
    holds (startLoad 0x71000421 [] [])
      (fun t => t.readReg 1 == 0xffffff78 && t.readReg 2 == 0x2001 && t.sr == 0x0 &&
        t.pc == 0x104) = true := by decide
theorem test_L5_lbp :
    holds (startLoad 0x72000421 [] [])
      (fun t => t.readReg 1 == 0xffffff80 && t.readReg 2 == 0x1fff && t.sr == 0x0 &&
        t.pc == 0x104) = true := by decide
theorem test_L6_lbd :
    holds (startLoad 0x73000421 [] [])
      (fun t => t.readReg 1 == 0xffffff78 && t.readReg 2 == 0x1fff && t.sr == 0x0 &&
        t.pc == 0x104) = true := by decide
theorem test_L7_lh :
    holds (startLoad 0x74000421 [] [])
      (fun t => t.readReg 1 == 0xffff5678 && t.sr == 0x0 && t.pc == 0x104) = true := by decide
theorem test_L10_lhi :
    holds (startLoad 0x75000421 [] [])
      (fun t => t.readReg 1 == 0xffff5678 && t.readReg 2 == 0x2002 && t.sr == 0x0 &&
        t.pc == 0x104) = true := by decide
theorem test_L11_lhp :
    holds (startLoad 0x76000421 [] [])
      (fun t => t.readReg 1 == 0xffff80c0 && t.readReg 2 == 0x1ffe && t.sr == 0x0 &&
        t.pc == 0x104) = true := by decide
theorem test_L12_lhd :
    holds (startLoad 0x77000421 [] [])
      (fun t => t.readReg 1 == 0xffff5678 && t.readReg 2 == 0x1ffe && t.sr == 0x0 &&
        t.pc == 0x104) = true := by decide
theorem test_L13_lw :
    holds (startLoad 0x78000421 [] [])
      (fun t => t.readReg 1 == 0x12345678 && t.sr == 0x0 && t.pc == 0x104) = true := by decide
theorem test_L18_lwi :
    holds (startLoad 0x79000421 [] [])
      (fun t => t.readReg 1 == 0x12345678 && t.readReg 2 == 0x2004 && t.sr == 0x0 &&
        t.pc == 0x104) = true := by decide
theorem test_L21_lwp :
    holds (startLoad 0x7a000421 [] [])
      (fun t => t.readReg 1 == 0x80c0e0f1 && t.readReg 2 == 0x1ffc && t.sr == 0x0 &&
        t.pc == 0x104) = true := by decide
theorem test_L23_lwd :
    holds (startLoad 0x7b000421 [] [])
      (fun t => t.readReg 1 == 0x12345678 && t.readReg 2 == 0x1ffc && t.sr == 0x0 &&
        t.pc == 0x104) = true := by decide
theorem test_L24_lbx :
    holds (startLoad 0x7c000321 [(3, 4)] [])
      (fun t => t.readReg 1 == 0xffffff78 && t.sr == 0x0 && t.pc == 0x104) = true := by decide
theorem test_L25_lhx :
    holds (startLoad 0x7d000321 [(3, 4)] [])
      (fun t => t.readReg 1 == 0xffff5678 && t.sr == 0x0 && t.pc == 0x104) = true := by decide
theorem test_L26_lwx :
    holds (startLoad 0x7e000321 [(3, 0xfffffffc)] [])
      (fun t => t.readReg 1 == 0x9abcdef0 && t.sr == 0x0 && t.pc == 0x104) = true := by decide
theorem test_L27_lwxi :
    holds (startLoad 0x7f000321 [(3, 4)] [])
      (fun t => t.readReg 1 == 0x12345678 && t.readReg 3 == 0x8 && t.sr == 0x0 && t.pc == 0x104) = true := by decide
theorem test_T1_mov :
    holds ({ start 0x20000021 [(2, 0x80000000)] [] with sr := 0x1 })
      (fun t => t.readReg 1 == 0x80000000 && t.sr == 0x1 && t.pc == 0x104) = true := by decide
theorem test_T6_swp :
    holds (start 0x21000021 [(1, 0x11), (2, 0x22)] [])
      (fun t => t.readReg 1 == 0x22 && t.readReg 2 == 0x11 && t.sr == 0x0 && t.pc == 0x104) = true := by decide
theorem test_T9_not :
    holds (start 0x22000021 [(2, 0)] [])
      (fun t => t.readReg 1 == 0xffffffff && t.sr == 0x80 && t.pc == 0x104) = true := by decide
theorem test_T11_cmp :
    holds (start 0x23000021 [(1, 5), (2, 7)] []) (fun t => t.sr == 0x80 && t.pc == 0x104) = true := by decide
theorem test_T14_sxb :
    holds (start 0x24000021 [(2, 0x12345680)] [])
      (fun t => t.readReg 1 == 0xffffff80 && t.sr == 0x80 && t.pc == 0x104) = true := by decide
theorem test_T16_sxw :
    holds (start 0x25000021 [(2, 0x12348000)] [])
      (fun t => t.readReg 1 == 0xffff8000 && t.sr == 0x80 && t.pc == 0x104) = true := by decide
theorem test_T17_zxb :
    holds (start 0x26000021 [(2, 0x12345600)] []) (fun t => t.sr == 0x1 && t.pc == 0x104) = true := by decide
theorem test_T19_zxw :
    holds (start 0x27000021 [(2, 0xffff8000)] [])
      (fun t => t.readReg 1 == 0x8000 && t.sr == 0x0 && t.pc == 0x104) = true := by decide
theorem test_T20_mvhh :
    holds (start 0x2c000021 [(1, 0x11112222), (2, 0xaaaabbbb)] [])
      (fun t => t.readReg 1 == 0xaaaa2222 && t.sr == 0x0 && t.pc == 0x104) = true := by decide
theorem test_T21_mvhl :
    holds (start 0x2d000021 [(1, 0x11112222), (2, 0xaaaabbbb)] [])
      (fun t => t.readReg 1 == 0x1111aaaa && t.sr == 0x0 && t.pc == 0x104) = true := by decide
theorem test_T22_mvlh :
    holds (start 0x2e000021 [(1, 0x11112222), (2, 0xaaaabbbb)] [])
      (fun t => t.readReg 1 == 0xbbbb2222 && t.sr == 0x0 && t.pc == 0x104) = true := by decide
theorem test_T23_mvll :
    holds (start 0x2f000021 [(1, 0x11112222), (2, 0xaaaabbbb)] [])
      (fun t => t.readReg 1 == 0x1111bbbb && t.sr == 0x0 && t.pc == 0x104) = true := by decide
theorem test_T25_add :
    holds (start 0x3000fff1 [(1, 1)] [])
      (fun t => t.readReg 1 == 0x1000 && t.sr == 0x0 && t.pc == 0x104) = true := by decide
theorem test_T27_sub :
    holds (start 0x31000011 [(1, 1)] [])
      (fun t => t.readReg 1 == 0x0 && t.sr == 0x3 && t.pc == 0x104) = true := by decide
theorem test_T29_reserved :
    holds (start 0x28000021 [] [])
      (fun t => t.isp == 0xff8 && t.sr == 0x800 && t.pc == 0x920 &&
        loadBytes t.mem 0xffc .word == 0x104) = true := by decide
theorem test_T30_reserved :
    holds (start 0x32000021 [] [])
      (fun t => t.isp == 0xff8 && t.sr == 0x800 && t.pc == 0x920 &&
        loadBytes t.mem 0xffc .word == 0x104) = true := by decide
theorem test_T31_smov :
    holds (start 0x3800001d [(1, 0x8000)] [])
      (fun t => t.sr == 0x0 && t.pc == 0x104 && t.ssp == 0x8000) = true := by decide
theorem test_T34_smov :
    holds ({ start 0x390000f1 [] [] with spc := 0x4000 })
      (fun t => t.readReg 1 == 0x4000 && t.sr == 0x0 && t.pc == 0x104) = true := by decide
theorem test_T41_mov :
    holds ({ startAt 0x4000 0x2000001e [(1, 0x700), (13, 0x7000)] [] with sr := 0x600, ssp := 0x8000, spc := 0x10c })
      (fun t => t.isp == 0x7ff8 && t.sr == 0xc00 && t.pc == 0x960 && t.ssp == 0x7000 && t.spc == 0x4004 &&
        loadBytes t.mem 0x7ff8 .word == 0x400 && loadBytes t.mem 0x7ffc .word == 0x10c) = true := by decide
theorem test_O1_ba : holds (start 0x10000040 [] []) (fun t => t.sr == 0x0 && t.pc == 0x100) = true := by decide
theorem test_O3_br : holds (start 0x11000003 [] []) (fun t => t.sr == 0x0 && t.pc == 0x110) = true := by decide
theorem test_O6_br : holds (start 0x110cfffd [(10, 1)] []) (fun t => t.sr == 0x0 && t.pc == 0x104) = true := by decide
theorem test_O7_jf :
    holds (start 0x12000000 [] [(0x104, 0x13000002)]) (fun t => t.sr == 0x0 && t.pc == 0x20000) = true := by decide
theorem test_O10_last : holds (start 0x13000002 [] []) (fun t => t.sr == 0x0 && t.pc == 0xfc) = true := by decide
theorem test_O11_call :
    holds (start 0x14000080 [] [])
      (fun t => t.isp == 0xff8 && t.sr == 0x0 && t.pc == 0x200 && loadBytes t.mem 0xff8 .word == 0x2000 &&
        loadBytes t.mem 0xffc .word == 0x104) = true := by decide
theorem test_O13_callr :
    holds (start 0x15000004 [] [])
      (fun t => t.isp == 0xff8 && t.sr == 0x0 && t.pc == 0x114 && loadBytes t.mem 0xff8 .word == 0x2000 &&
        loadBytes t.mem 0xffc .word == 0x104) = true := by decide
theorem test_O15_call :
    holds (start 0x1c000001 [(1, 0x300)] [])
      (fun t => t.isp == 0xff8 && t.sr == 0x0 && t.pc == 0x300 && loadBytes t.mem 0xff8 .word == 0x2000 &&
        loadBytes t.mem 0xffc .word == 0x104) = true := by decide
theorem test_O16_call :
    holds (start 0x1c000001 [(1, 0x302)] [])
      (fun t => t.isp == 0xff8 && t.sr == 0x800 && t.pc == 0x970 &&
        loadBytes t.mem 0xffc .word == 0x104) = true := by decide
theorem test_O17_callr :
    holds (start 0x1d000001 [(1, 0xfffffff8)] [])
      (fun t => t.isp == 0xff8 && t.sr == 0x0 && t.pc == 0xfc && loadBytes t.mem 0xff8 .word == 0x2000 &&
        loadBytes t.mem 0xffc .word == 0x104) = true := by decide
theorem test_O20_fcall :
    holds (start 0x16000080 [] [])
      (fun t => t.readReg 8 == 0x2000 && t.readReg 9 == 0x104 && t.sr == 0x0 && t.pc == 0x200) = true := by decide
theorem test_O21_fcallr :
    holds (start 0x17000004 [] [])
      (fun t => t.readReg 8 == 0x2000 && t.readReg 9 == 0x104 && t.sr == 0x0 && t.pc == 0x114) = true := by decide
theorem test_O22_fcall :
    holds (start 0x1e000001 [(1, 0x300)] [])
      (fun t => t.readReg 8 == 0x2000 && t.readReg 9 == 0x104 && t.sr == 0x0 && t.pc == 0x300) = true := by decide
theorem test_O23_fcallr :
    holds (start 0x1f000001 [(1, 0x10)] [])
      (fun t => t.readReg 8 == 0x2000 && t.readReg 9 == 0x104 && t.sr == 0x0 && t.pc == 0x114) = true := by decide
theorem test_O25_int :
    holds (start 0x18000021 [] [(0x84, 0x500)])
      (fun t => t.isp == 0xff8 && t.sr == 0x100 && t.pc == 0x500 &&
        loadBytes t.mem 0xffc .word == 0x104) = true := by decide
theorem test_O27_int :
    holds (start 0x19000001 [(1, 0xabcdef21)] [(0x84, 0x500)])
      (fun t => t.isp == 0xff8 && t.sr == 0x100 && t.pc == 0x500 &&
        loadBytes t.mem 0xffc .word == 0x104) = true := by decide
theorem test_O28_int :
    holds ({ start 0x18000021 [] [(0x84, 0x500)] with sr := 0x100 })
      (fun t => t.isp == 0xff8 && t.sr == 0x900 && t.pc == 0x950 && loadBytes t.mem 0xff8 .word == 0x100 &&
        loadBytes t.mem 0xffc .word == 0x104) = true := by decide
theorem test_O29_lil :
    holds (start 0x1a001234 [(10, 0xaaaabbbb)] [])
      (fun t => t.readReg 10 == 0xaaaa1234 && t.sr == 0x0 && t.pc == 0x104) = true := by decide
theorem test_O30_lih :
    holds (start 0x1b001234 [(10, 0xaaaabbbb)] [])
      (fun t => t.readReg 10 == 0x1234bbbb && t.sr == 0x0 && t.pc == 0x104) = true := by decide
theorem test_Z1_ret :
    holds (start 0x08000000 [(13, 0xff8), (12, 0)] [(0xff8, 0x2222), (0xffc, 0x104)])
      (fun t => t.dsp == 0x2222 && t.isp == 0x1000 && t.sr == 0x0 && t.pc == 0x104) = true := by decide
theorem test_Z2_ret :
    holds (start 0x08000000 [(13, 0xff8)] [(0xff8, 0x2222), (0xffc, 0x106)])
      (fun t => t.isp == 0xff0 && t.sr == 0x800 && t.pc == 0x970 &&
        loadBytes t.mem 0xff4 .word == 0x104) = true := by decide
theorem test_Z3_fret :
    holds (start 0x09000000 [(8, 0x2222), (9, 0x300)] [])
      (fun t => t.dsp == 0x2222 && t.sr == 0x0 && t.pc == 0x300) = true := by decide
theorem test_Z4_sleep :
    holds ({ start 0x0a000000 [] [] with sr := 0x3 }) (fun t => t.sr == 0x1003 && t.pc == 0x104) = true := by decide
theorem test_Z6_rfi :
    holds ({ start 0x0b000000 [(13, 0xff8)] [(0xff8, 0x83), (0xffc, 0x300)] with sr := 0x900 })
      (fun t => t.isp == 0x1000 && t.sr == 0x83 && t.pc == 0x300) = true := by decide
theorem test_Z7_rfi :
    holds ({ start 0x0b000000 [(13, 0xff8)] [(0xff8, 0x283), (0xffc, 0x104)] with sr := 0x900, ssp := 0x8000, spc := 0x4000 })
      (fun t => t.isp == 0x8000 && t.sr == 0x283 && t.pc == 0x4000 && t.ssp == 0x1000 &&
        t.spc == 0x104) = true := by decide
theorem test_Z8_rfi :
    holds ({ startAt 0x4000 0x0b000000 [(13, 0x7000)] [] with sr := 0x200, ssp := 0x8000, spc := 0x10c })
      (fun t => t.isp == 0x7ff8 && t.sr == 0x800 && t.pc == 0x930 && t.ssp == 0x7000 && t.spc == 0x4004 &&
        loadBytes t.mem 0x7ffc .word == 0x10c) = true := by decide
theorem test_Z9_brk : holds (start 0x0f000000 [] []) (fun t => t.sr == 0x0 && t.pc == 0x104) = true := by decide
theorem test_Z10_brk :
    holds ({ startAt 0x4000 0x0f000000 [(13, 0x7000)] [] with sr := 0x200, ssp := 0x8000, spc := 0x10c })
      (fun t => t.isp == 0x7ff8 && t.sr == 0x800 && t.pc == 0x910 && t.ssp == 0x7000 && t.spc == 0x4004 &&
        loadBytes t.mem 0x7ffc .word == 0x10c) = true := by decide
theorem test_Z12_reserved :
    holds (start 0x0c000000 [] [])
      (fun t => t.isp == 0xff8 && t.sr == 0x800 && t.pc == 0x920 &&
        loadBytes t.mem 0xffc .word == 0x104) = true := by decide
theorem test_Z13_allzero :
    holds (start 0x00000000 [] [])
      (fun t => t.isp == 0xff8 && t.sr == 0x800 && t.pc == 0x920 &&
        loadBytes t.mem 0xffc .word == 0x104) = true := by decide
theorem test_K1_cadd :
    holds (start 0xa013c021 [(1, 5), (2, 7)] [])
      (fun t => t.readReg 1 == 0xc && t.readReg 3 == 0xc && t.sr == 0x0 && t.pc == 0x104) = true := by decide
theorem test_K2_cmov :
    holds (start 0xa313a013 [(1, 9)] [])
      (fun t => t.readReg 3 == 0x9 && t.sr == 0x3 && t.pc == 0x104) = true := by decide
theorem test_K3_cbr :
    holds (start 0xd0119102 [(1, 1)] [])
      (fun t => t.readReg 1 == 0x2 && t.sr == 0x0 && t.pc == 0x10c) = true := by decide
theorem test_K4_cudiv :
    holds (start 0xd013c421 [(1, 9), (2, 0), (3, 5)] [])
      (fun t => t.isp == 0xff8 && t.sr == 0x800 && t.pc == 0x940 &&
        loadBytes t.mem 0xffc .word == 0x104) = true := by decide
theorem test_K6_cadd :
    holds (start 0xd111d0f1 [(1, 0xfffffff1)] [])
      (fun t => t.readReg 1 == 0xffffffff && t.sr == 0x80 && t.pc == 0x104) = true := by decide
theorem test_K7_cshl :
    holds (start 0xca11db41 [(1, 0xf000001)] [])
      (fun t => t.readReg 1 == 0x0 && t.sr == 0x1 && t.pc == 0x104) = true := by decide
theorem test_K8_cadd :
    holds (start 0xb1f4b094 [(4, 1)] [])
      (fun t => t.readReg 4 == 0xfffffffb && t.sr == 0x80 && t.pc == 0x104) = true := by decide
theorem test_K9_cumul :
    holds (start 0xa0a3c221 [(1, 0x10000), (2, 0x10000)] [])
      (fun t => t.readReg 1 == 0x0 && t.readReg 3 == 0x1 && t.readReg 10 == 0x1 && t.sr == 0x2 &&
        t.pc == 0x104) = true := by decide
theorem test_K11_cba : holds (start 0x91039008 [] []) (fun t => t.sr == 0x0 && t.pc == 0x2c) = true := by decide
theorem test_K13_clil :
    holds (start 0x9bcd9aab [] [])
      (fun t => t.readReg 10 == 0xcd00ab && t.sr == 0x0 && t.pc == 0x104) = true := by decide
theorem test_K14_ccall :
    holds (start 0xd0119410 [(1, 0)] [])
      (fun t => t.readReg 1 == 0x1 && t.isp == 0xff8 && t.sr == 0x0 && t.pc == 0x40 &&
        loadBytes t.mem 0xff8 .word == 0x2000 && loadBytes t.mem 0xffc .word == 0x104) = true := by decide
theorem test_K15_ccall :
    holds (start 0xd0119c53 [(3, 0x300), (1, 0)] [])
      (fun t => t.readReg 1 == 0x1 && t.isp == 0xff8 && t.sr == 0x0 && t.pc == 0x300 &&
        loadBytes t.mem 0xff8 .word == 0x2000 && loadBytes t.mem 0xffc .word == 0x104) = true := by decide
theorem test_K16_clast : holds (start 0xa0009300 [] []) (fun t => t.sr == 0x0 && t.pc == 0xfc) = true := by decide
theorem test_K18_cint :
    holds (start 0xd0139821 [(3, 0)] [(0x84, 0x500)])
      (fun t => t.readReg 3 == 0x1 && t.isp == 0xff8 && t.sr == 0x100 && t.pc == 0x500 &&
        loadBytes t.mem 0xffc .word == 0x104) = true := by decide
theorem test_K19_cstwp :
    holds (start 0xf906ea05 [(5, 0xcafebabe)] [])
      (fun t => t.readReg 6 == 0xcafebabe && t.sr == 0x0 && t.pc == 0x104 &&
        loadBytes t.mem 0x1ffc .word == 0xcafebabe) = true := by decide
theorem test_K20_cstwx :
    holds (start 0xfc26ee25 [(5, 0x11223344), (2, 8), (6, 0xffffffff)] [])
      (fun t => t.readReg 6 == 0xffffff44 && t.sr == 0x0 && t.pc == 0x104 &&
        loadBytes t.mem 0x2008 .word == 0x11223344) = true := by decide
theorem test_K21_cstw :
    holds (start 0xf896e875 [(5, 0x55), (6, 0x66)] [(0x2000, 0x12345678)])
      (fun t => t.readReg 6 == 0x55 && t.sr == 0x0 && t.pc == 0x104 &&
        loadBytes t.mem 0x2000 .word == 0x55) = true := by decide
theorem test_K22_csmov :
    holds (start 0xb9d2b81d [(1, 0x8000)] [])
      (fun t => t.readReg 2 == 0x8000 && t.sr == 0x0 && t.pc == 0x104 && t.ssp == 0x8000) = true := by decide
theorem test_K26_cadd :
    holds (start 0xc613d013 [(3, 0)] [])
      (fun t => t.readReg 3 == 0x1 && t.isp == 0xff8 && t.sr == 0x800 && t.pc == 0x920 &&
        loadBytes t.mem 0xffc .word == 0x104) = true := by decide
theorem test_K28_reserved :
    holds (start 0xd0138800 [(3, 0)] [])
      (fun t => t.isp == 0xff8 && t.sr == 0x800 && t.pc == 0x920 &&
        loadBytes t.mem 0xffc .word == 0x104) = true := by decide
theorem test_E2_udiv :
    holds ({ start 0x44000321 [(3, 0)] [] with sr := 0x803 })
      (fun t => t.sr == 0x1803 && t.pc == 0x104) = true := by decide
theorem test_E3_udiv :
    holds ({ startAt 0x4000 0x44000321 [(3, 0), (13, 0x7000)] [] with sr := 0xa03, ssp := 0x8000, spc := 0x10c })
      (fun t => t.isp == 0x7ff8 && t.sr == 0x803 && t.pc == 0x940 && t.ssp == 0x7000 && t.spc == 0x4004 &&
        loadBytes t.mem 0x7ff8 .word == 0x803 && loadBytes t.mem 0x7ffc .word == 0x10c) = true := by decide
theorem test_E4_udiv :
    holds ({ start 0x44000321 [(3, 0)] [(0x3010, 0xa03)] with sii := 0x3000 })
      (fun t => t.isp == 0xff8 && t.sr == 0x800 && t.pc == 0xa00 &&
        loadBytes t.mem 0xffc .word == 0x104) = true := by decide
theorem test_E7_call :
    holds (start 0x14000080 [(13, 0x1002)] []) (fun t => t.sr == 0x1000 && t.pc == 0x104) = true := by decide
theorem test_E8_int :
    holds ({ startAt 0x4000 0x18000021 [(13, 0x7000)] [(0x84, 0x500)] with sr := 0x200, ssp := 0x8000, spc := 0x10c })
      (fun t => t.isp == 0x7ff8 && t.sr == 0x100 && t.pc == 0x500 && t.ssp == 0x7000 && t.spc == 0x4004 &&
        loadBytes t.mem 0x7ffc .word == 0x10c) = true := by decide

/-! ## The hypotheses of the statements are met

One theorem a statement: a concrete state and operands that meet its hypotheses, each clause at a boundary. -/

theorem test_hyp_EncodingRoundTrips :
    ((Instr.addN ifNe 15 0 0xFF).isCompact = false ∧ (Instr.addN ifNe 15 0 0xFF).wellFormed = true) ∧
    ((Instr.brk al).isCompact = false ∧ (Instr.brk al).wellFormed = true) ∧
    (Instr.cRsvd80 15 0xFF).isCompact = true := by decide

theorem test_hyp_DecodedInstructionReencodes :
    decodeStd 0x7F2CF0FF#32 = .error (.mustBeZero ifNe) ∧ decodeStd 0x7F2C0FFF#32 = .ok (.lwxi ifNe 15 15 15) ∧
    decodeHalf 0xFFFF#16 = .ok (.cLwxi 15 15) := ⟨rfl, rfl, rfl⟩

theorem test_hyp_MustBeZeroBitsDecideDecoding :
    ((0x402C1000#32).msb = false ∧ decodeGuard 0x402C1000#32 = .ok ifNe ∧
      fieldLo 0x402C1000#32 &&& operandZeroMask (fieldOp 0x402C1000#32) ≠ 0#16) ∧
    ((0x402C0FFF#32).msb = false ∧ decodeGuard 0x402C0FFF#32 = .ok ifNe ∧
      fieldLo 0x402C0FFF#32 &&& operandZeroMask (fieldOp 0x402C0FFF#32) = 0#16) := by decide

theorem test_hyp_StepRunsStandardWord :
    (start 0x40000102 [] []).Fetches 0x40000102#32 ∧ decodeStd 0x40000102#32 = .ok (.add al 2 0 1) ∧
    (startAt 0xFFFFFFFC 0x00080000 [] []).Fetches 0x00080000#32 ∧
    decodeStd 0x00080000#32 = .ok (.rsvd00 ⟨.nv, 0⟩ 0 0) := by decide

/-- `{ c.add r1,$15 ; c.sub r1,$1 }`, a pair whose first half traps, and one whose first half has no marker. -/
theorem test_hyp_StepRunsCompactPair :
    ((start 0xD111D0F1 [] []).Fetches 0xD111D0F1#32 ∧ (0xD111D0F1#32).msb = true ∧
      (lower16 0xD111D0F1#32).msb = true ∧
      answers (exec (.cAddN 1 15) { start 0xD111D0F1 [] [] with pc := 0x104, busTime := 1, latch := some 0xD111 })
        (fun t => t.latch == some 0xD111) = true) ∧
    ((start 0xD013C613 [] []).Fetches 0xD013C613#32 ∧ (0xD013C613#32).msb = true ∧
      (lower16 0xD013C613#32).msb = true ∧
      answers (exec (.cRsvdC6 0x13) { start 0xD013C613 [] [] with pc := 0x104, busTime := 1, latch := some 0xD013 })
        (fun t => t.latch == none) = true) ∧
    ((start 0x80007FFF [] []).Fetches 0x80007FFF#32 ∧ (0x80007FFF#32).msb = true ∧
      (lower16 0x80007FFF#32).msb = false) := by decide

theorem test_hyp_OnlyATrapAbortsTheSecondHalf :
    answers (exec (.add al 2 0 1) { sys with latch := some 0xA000 }) (fun t => t.latch == some 0xA000) = true ∧
    answers (exec (.add al 15 0 1) { sys with latch := some 0xA000, r := sys.r.set 0 2 })
      (fun t => t.latch == none) = true := by decide

theorem test_hyp_ReservedFieldsTrap :
    ((start 0x40400102 [] []).Fetches 0x40400102#32 ∧ (0x40400102#32).extractLsb' 22 2 ≠ 0#2) ∧
    ((start 0x40070102 [] []).Fetches 0x40070102#32 ∧ (0x40070102#32).extractLsb' 16 4 = 7#4) ∧
    ((start 0x40100102 [] []).Fetches 0x40100102#32 ∧ (0x40100102#32).extractLsb' 16 4 = 0#4 ∧
      (0x40100102#32).extractLsb' 20 2 ≠ 0#2) ∧
    ((start 0x08000001 [] []).Fetches 0x08000001#32 ∧ decodeGuard 0x08000001#32 = .ok al ∧
      fieldLo 0x08000001#32 &&& operandZeroMask (fieldOp 0x08000001#32) ≠ 0#16 ∧
      (start 0x08000001 [] []).condHolds al = true) ∧
    ((start 0x08088000 [] []).Fetches 0x08088000#32 ∧ decodeGuard 0x08088000#32 = .ok ⟨.nv, 0⟩ ∧
      fieldLo 0x08088000#32 &&& operandZeroMask (fieldOp 0x08088000#32) ≠ 0#16 ∧
      (start 0x08088000 [] []).condHolds ⟨.nv, 0⟩ = false) := by decide

theorem test_hyp_FailingFetchTraps :
    (failingAt .fetch 4 0x100 sys).Ready ∧ aligned4 (failingAt .fetch 4 0x100 sys).pc = true ∧
    accessFails (failingAt .fetch 4 0x100 sys) .fetch 0x100 .word = true := by decide

theorem test_hyp_BoundaryTakesEventsInOrder :
    (sys.assertReset.latch = none ∧ sys.assertReset.resetLine = .low) ∧
    (sys.assertReset.releaseReset.latch = none ∧ sys.assertReset.releaseReset.resetLine = .risen) ∧
    (sys.requestNmi.latch = none ∧ sys.requestNmi.resetLine = .high ∧ sys.requestNmi.nmiPending ≠ 0) ∧
    ((sys.requestIrq 255).latch = none ∧ (sys.requestIrq 255).resetLine = .high ∧
      (sys.requestIrq 255).nmiPending = 0 ∧ (sys.requestIrq 255).flagI = false ∧
      (sys.requestIrq 255).irqPending = [255]) ∧
    State.Halted { sys with sr := 0x1100, irqPending := [255] } := by decide

theorem test_hyp_PlacedWordIsFetched :
    sys.mem.wf = true ∧ (sys.withFetchWord 32 0x40000102).Fetches 0x40000102#32 ∧
    (State.reset.withFetchWord 16 0xC021).Fetches 0xA000C021#32 := by decide

theorem test_hyp_StepKeepsInvariant :
    (start 0x40000102 [] []).Inv ∧ holds (start 0x40000102 [] []) (fun t => t.pc == 0x104) = true := by decide

theorem test_hyp_ResetSequenceLoadsVector :
    accessFails sys .read 0#32 .word = false ∧ accessFails (failingAt .read 4 0 sys) .read 0#32 .word = true := by
  decide

theorem test_hyp_RegisterWriteThenRead :
    (0#4).toNat < 14 ∧ (13#4).toNat < 14 ∧ ¬ (14#4).toNat < 14 ∧ (0xFFFFFFFC#32).extractLsb' 0 2 = 0#2 ∧
    (0xFFFFFFFD#32).extractLsb' 0 2 ≠ 0#2 := by decide

theorem test_hyp_StatusRegisterWrite :
    sys.flagP = false ∧
    (user.flagP = true ∧ ((0xFFFFE2FF#32).extractLsb' 0 16 &&& 0x1FC3#16).extractLsb' 8 5 = user.control) ∧
    (user.flagP = true ∧ ((0x300#32).extractLsb' 0 16 &&& 0x1FC3#16).extractLsb' 8 5 ≠ user.control ∧
      user.flagS = false) ∧
    (strict.flagP = true ∧ ((0x700#32).extractLsb' 0 16 &&& 0x1FC3#16).extractLsb' 8 5 ≠ strict.control ∧
      strict.flagS = true) := by decide

theorem test_hyp_ConditionRegistersAreHalves :
    (3#2 : BitVec 2) ≠ 0#2 ∧ (9#4 : Reg) ≠ 10#4 ∧ (9#4 : Reg) ≠ 11#4 ∧ (12#4 : Reg) ≠ 10#4 ∧
    (12#4 : Reg) ≠ 11#4 := by decide

theorem test_hyp_FlagUpdateIsRedirected :
    ifNe.cond ≠ .f ∧ (⟨.f, 3⟩ : Guard).cond = .f ∧ (2#2 : BitVec 2) ≠ (⟨.f, 3⟩ : Guard).rr := by decide

/-- One of the two readings is the machine's. -/
theorem test_hyp_ConditionCodesTest : Config.signedCond = .nOnly ∨ Config.signedCond = .nXorV := by
  cases Config.signedCond
  · exact .inl rfl
  · exact .inr rfl

theorem test_hyp_FalseConditionSkips :
    ((Instr.add ⟨.eq, 3⟩ 2 0 1).guard = some ⟨.eq, 3⟩ ∧ (⟨.eq, 3⟩ : Guard).wellFormed = true ∧
      sys.condHolds ⟨.eq, 3⟩ = false) ∧
    ((Instr.add ⟨.al, 1⟩ 2 0 1).guard = some ⟨.al, 1⟩ ∧ (⟨.al, 1⟩ : Guard).cond = .al ∧
      (⟨.al, 1⟩ : Guard).rr ≠ 0#2) := by decide

theorem test_hyp_QuotientResultAndFlags :
    (1#32 : Word) ≠ 0#32 ∧ ((0x80000000#32 : Word) = 0x80000000#32 ∧ (0xFFFFFFFF#32 : Word) = 0xFFFFFFFF#32) ∧
    ¬((0x80000001#32 : Word) = 0x80000000#32 ∧ (0xFFFFFFFF#32 : Word) = 0xFFFFFFFF#32) := by decide

theorem test_hyp_AluRegisterCompletes :
    AluRegisterRow sys (.add al 13 0 1) al 13 (addResult 5 7) ∧
    AluRegisterRow sys (.cRotr 0 1) al 0 (rotrResult 5 7) ∧
    al.wellFormed = true ∧ sys.condHolds al = true ∧ (13 : Reg).toNat < 14 :=
  ⟨.add .., .cRotr .., by decide⟩

theorem test_hyp_AluImmediateCompletes :
    AluImmediateRow sys (.addN al 13 0 0xFF) al 13 (addResult 5 (immAlu8 0xFF)) ∧
    AluImmediateRow sys (.cSubN12 0 15) al 0 (subResult 5 (immAlu12 (compactN12 15))) ∧
    al.wellFormed = true ∧ sys.condHolds al = true ∧ (13 : Reg).toNat < 14 :=
  ⟨.addN .., .cSubN12 .., by decide⟩

theorem test_hyp_MultiplyAndDivideComplete :
    MultiplyRow sys (.umul al 13 0 1) al 13 (umulResult 5 7) ∧
    DivideRow sys (.sdiv al 13 0 1) al 13 7 (sdivResult 5 7) ∧ (7 : Word) ≠ 0#32 ∧
    DivideRow sys (.udiv al 15 0 2) al 15 0#32 (udivResult 5 0) ∧
    al.wellFormed = true ∧ sys.condHolds al = true ∧ (13 : Reg).toNat < 14 :=
  ⟨.umul .., .sdiv .., by decide, .udiv .., by decide⟩

theorem test_hyp_UnaryMoveAndCompareComplete :
    UnaryRow sys (.not al 13 0) al 13 (notResult 5) ∧ MoveRow sys (.cLih 0xFF) al 10 0x00FF0000 ∧
    CompareRow (.cmp al 14 15) al 14 15 ∧
    al.wellFormed = true ∧ sys.condHolds al = true ∧ (13 : Reg).toNat < 14 :=
  ⟨.not .., .cLih .., .cmp .., by decide⟩

theorem test_hyp_SwapCompletes :
    SwapRow (.swp al 0 13) al 0 13 ∧ SwapRow (.cSwp 14 15) al 14 15 ∧ al.wellFormed = true ∧
    sys.condHolds al = true ∧ (0 : Reg).toNat < 14 ∧ (13 : Reg).toNat < 14 :=
  ⟨.swp .., .cSwp .., by decide⟩

theorem test_hyp_ResultToProgramCounter :
    (ResultRow sys (.mov al 15 12) al 15 0x2000 (fun t => t) ∧ (0x2000 : Word).extractLsb' 0 2 = 0#2) ∧
    (ResultRow sys (.mov al 15 0) al 15 5 (fun t => t) ∧ (5 : Word).extractLsb' 0 2 ≠ 0#2) ∧
    al.wellFormed = true ∧ sys.condHolds al = true :=
  ⟨⟨.move _ _ _ _ (.mov ..), by decide⟩, ⟨.move _ _ _ _ (.mov ..), by decide⟩, by decide⟩

theorem test_hyp_ResultToStatusRegister :
    (ResultRow sys (.mov al 14 0) al 14 5 (fun t => t) ∧ sys.flagP = false ∧ (5 : Word).getLsbD 9 = false) ∧
    (ResultRow toUser (.mov al 14 0) al 14 0x200 (fun t => t) ∧ toUser.flagP = false ∧
      (0x200 : Word).getLsbD 9 = true ∧ toUser.spc.extractLsb' 0 2 = 0#2) ∧
    (ResultRow { toUser with spc := 0x4002 } (.mov al 14 0) al 14 0x200 (fun t => t) ∧
      (0x4002 : Word).extractLsb' 0 2 ≠ 0#2) ∧
    (ResultRow user (.mov al 14 1) al 14 0x2C3 (fun t => t) ∧ user.flagP = true ∧
      (0x2C3 : Word).extractLsb' 8 5 = user.control) ∧
    (ResultRow user (.mov al 14 0) al 14 5 (fun t => t) ∧ (5 : Word).extractLsb' 8 5 ≠ user.control ∧
      user.flagS = false) ∧
    (ResultRow strict (.mov al 14 0) al 14 5 (fun t => t) ∧ strict.flagP = true ∧
      (5 : Word).extractLsb' 8 5 ≠ strict.control ∧ strict.flagS = true) ∧
    al.wellFormed = true ∧ sys.condHolds al = true ∧ user.condHolds al = true :=
  ⟨⟨.move _ _ _ _ (.mov ..), by decide⟩, ⟨.move _ _ _ _ (.mov ..), by decide⟩,
    ⟨.move _ _ _ _ (.mov al 14 0), by decide⟩, ⟨.move _ _ _ _ (.mov ..), by decide⟩,
    ⟨.move _ _ _ _ (.mov ..), by decide⟩, ⟨.move _ _ _ _ (.mov ..), by decide⟩, by decide⟩

theorem test_hyp_ResultFormsFrame :
    ResultRow sys (.lw al 13 12 4) al 13 0xBBBBBBBB (fun t => t) ∧ al.wellFormed = true ∧
    answers (exec (.lw al 13 12 4) sys) (fun t => t.isp == 0xBBBBBBBB) = true ∧
    ResultRow sys (.mov al 14 0) al 14 5 (fun t => t) ∧ (5 : Word).getLsbD 9 = false :=
  ⟨.load _ _ _ .word _ (.lw ..) (by decide), by decide, by decide, .move _ _ _ _ (.mov ..), by decide⟩

theorem test_hyp_SystemMovesComplete :
    SystemWriteRow (.smovTo al 13 0) al 13 0 ∧ SystemWriteRow (.cSmovTo 12 0) al 12 0 ∧
    SystemReadRow (.smovFrom al 15 15) al 15 15 ∧ SystemReadRow (.cSmovFrom 0 12) al 0 12 ∧
    al.wellFormed = true ∧ sys.condHolds al = true ∧ user.condHolds al = true ∧ sys.flagP = false ∧
    user.flagP = true ∧ (12 : Reg).toNat < 13 ∧ 13 ≤ (13 : Reg).toNat :=
  ⟨.smovTo .., .cSmovTo .., .smovFrom .., .cSmovFrom .., by decide⟩

/-- A map with one device of one word, between two words of memory. -/
theorem test_hyp_StoredBytesReadBack :
    let s : State := { sys with memMap := [⟨0x2004, 0x2007⟩] }
    s.mem.wf = true ∧ s.CanAccess .write 0x2002 .half ∧ s.CanAccess .read 0x2002 .half ∧
    s.isDevice 0x2000 .word = false ∧ s.isDevice 0x2003 .byte = false ∧ s.isDevice 0x2004 .byte = true ∧
    s.isDevice 0x2006 .half = true ∧ s.isDevice 0x2007 .byte = true ∧ s.isDevice 0x2008 .word = false := by decide

theorem test_hyp_LoadsComplete :
    (LoadRow sys (.lb al 13 12 3) al 13 .byte 0x2003 ∧ sys.CanAccess .read 0x2003 .byte) ∧
    (LoadRow sys (.lh al 0 12 1) al 0 .half 0x2001 ∧ misaligned 0x2001 .half = true) ∧
    (LoadRow (failingAt .read 4 0x2000 sys) (.cLw 0 0) al 0 .word 0x2000 ∧ misaligned 0x2000 .word = false ∧
      accessFails (failingAt .read 4 0x2000 sys) .read 0x2000 .word = true) ∧
    al.wellFormed = true ∧ sys.condHolds al = true ∧ (13 : Reg).toNat < 14 :=
  ⟨⟨.lb .., by decide⟩, ⟨.lh .., by decide⟩, ⟨.cLw .., by decide⟩, by decide⟩

theorem test_hyp_UpdatingLoadsComplete :
    (LoadUpdateRow (.lwp al 12 12 4) al 12 12 .word .preDec 4 ∧ sys.CanAccess .read 0x2000 .word) ∧
    (LoadUpdateRow (.lhi al 0 12 3) al 0 12 .half .postInc 3 ∧ misaligned 0x2003 .half = true) ∧
    (LoadUpdateRow (.cLwi 0 0) al 0 12 .word .postInc 0 ∧ misaligned 0x2000 .word = false ∧
      accessFails (failingAt .read 4 0x2000 sys) .read 0x2000 .word = true) ∧
    al.wellFormed = true ∧ sys.condHolds al = true ∧ (12 : Reg).toNat < 14 :=
  ⟨⟨.lwp al 12 12 4, by decide⟩, ⟨.lhi al 0 12 3, by decide⟩, ⟨.cLwi .., by decide⟩, by decide⟩

theorem test_hyp_StoresComplete :
    (StoreRow sys (.stb al 12 0 3) al .byte 0x2003 5 ∧ sys.CanAccess .write 0x2003 .byte) ∧
    (StoreRow sys (.sth al 12 0 1) al .half 0x2001 5 ∧ misaligned 0x2001 .half = true) ∧
    (StoreRow (failingAt .write 4 0x2000 sys) (.cStw 0 0) al .word 0x2000 5 ∧ misaligned 0x2000 .word = false ∧
      accessFails (failingAt .write 4 0x2000 sys) .write 0x2000 .word = true) ∧
    al.wellFormed = true ∧ sys.condHolds al = true ∧ sys.mem.wf = true :=
  ⟨⟨.stb .., by decide⟩, ⟨.sth .., by decide⟩, ⟨.cStw .., by decide⟩, by decide⟩

theorem test_hyp_UpdatingStoresComplete :
    (StoreUpdateRow (.stwp al 13 0 0) al 13 0 .word .preDec 0 ∧ sys.CanAccess .write 0xFFC .word) ∧
    (StoreUpdateRow (.sthi al 12 0 1) al 12 0 .half .postInc 1 ∧ misaligned 0x2001 .half = true) ∧
    (StoreUpdateRow (.cStwi 0 0) al 12 0 .word .postInc 0 ∧ misaligned 0x2000 .word = false ∧
      accessFails (failingAt .write 4 0x2000 sys) .write 0x2000 .word = true) ∧
    al.wellFormed = true ∧ sys.condHolds al = true ∧ sys.mem.wf = true ∧ (13 : Reg).toNat < 14 :=
  ⟨⟨.stwp al 13 0 0, by decide⟩, ⟨.sthi al 12 0 1, by decide⟩, ⟨.cStwi .., by decide⟩, by decide⟩

theorem test_hyp_IndexStepsComplete :
    (StoreIndexRow (.stwxi al 12 0 2) al 12 0 2 ∧ sys.CanAccess .write 0x2000 .word) ∧
    (LoadIndexRow (.cLwxi 13 2) al 13 12 2 ∧ sys.CanAccess .read 0x2000 .word) ∧
    al.wellFormed = true ∧ sys.condHolds al = true ∧ sys.mem.wf = true ∧ (13 : Reg).toNat < 14 ∧
    (2 : Reg).toNat < 14 :=
  ⟨⟨.stwxi .., by decide⟩, ⟨.cLwxi .., by decide⟩, by decide⟩

theorem test_hyp_SteppingFormsWithAnyRegisters :
    StoreUpdateRow (.stwi al 15 14 0) al 15 14 .word .postInc 0 ∧
    LoadUpdateRow (.lwi al 14 15 0) al 14 15 .word .postInc 0 ∧
    StoreIndexRow (.stwxi al 12 0 15) al 12 0 15 ∧ LoadIndexRow (.lwxi al 15 12 14) al 15 12 14 ∧
    al.wellFormed = true ∧ sys.condHolds al = true :=
  ⟨.stwi al 15 14 0, .lwi al 14 15 0, .stwxi .., .lwxi .., by decide⟩

theorem test_hyp_BranchesComplete :
    BranchRow sys (.br al 0xFFFF) al 0xFC ∧ BranchRow sys (.cLast 0) al 0xF8 ∧ al.wellFormed = true ∧
    sys.condHolds al = true ∧ aligned4 sys.pc = true :=
  ⟨.br .., .cLast .., by decide⟩

theorem test_hyp_JumpFarCompletes :
    JumpFarRow (.jf al 0xFFFC) al 0xFFFC ∧ (0xFFFC : Half).extractLsb' 0 2 = 0#2 ∧
    JumpFarRow (.cJf 1) al 1 ∧ (1 : Half).extractLsb' 0 2 ≠ 0#2 ∧
    accessFails sys .read sys.pc .word = false ∧
    accessFails (failingAt .read 4 0x100 sys) .read sys.pc .word = true ∧
    al.wellFormed = true ∧ sys.condHolds al = true ∧ aligned4 sys.pc = true :=
  ⟨.jf .., by decide, .cJf .., by decide⟩

theorem test_hyp_CallsComplete :
    (CallRow sys (.callX al 13) al 0xFF8 ∧ sys.CanPushTwo sys.isp ∧ aligned4 0xFF8 = true) ∧
    (CallRow sys (.callX al 0) al 5 ∧ aligned4 5 = false) ∧
    misaligned 0x1002 .word = true ∧
    (misaligned sys.isp .word = false ∧
      ¬ (failingAt .write 4 0xFF8 sys).CanPushTwo (failingAt .write 4 0xFF8 sys).isp) ∧
    al.wellFormed = true ∧ sys.condHolds al = true ∧ sys.mem.wf = true :=
  ⟨⟨.callX .., by decide⟩, ⟨.callX .., by decide⟩, by decide⟩

theorem test_hyp_FastCallsAndReturnComplete :
    (FastCallRow sys (.fcallX al 9) al 0x100 ∧ aligned4 0x100 = true) ∧
    (FastCallRow sys (.fcallX al 0) al 5 ∧ aligned4 5 = false) ∧
    aligned4 (sys.readReg 9#4) = true ∧ aligned4 (State.readReg (sys.setGeneral 9 2) 9#4) = false ∧
    al.wellFormed = true ∧ sys.condHolds al = true :=
  ⟨⟨.fcallX .., by decide⟩, ⟨.fcallX .., by decide⟩, by decide⟩

theorem test_hyp_ReturnCompletes :
    (misaligned sys.isp .word = false ∧ accessFails sys .read sys.isp .word = false ∧
      accessFails sys .read (sys.isp + 4#32) .word = false ∧
      aligned4 (loadBytes sys.mem (sys.isp + 4#32) .word) = true) ∧
    aligned4 (loadBytes (storeBytes sys.mem (sys.isp + 4#32) .word 2) (sys.isp + 4#32) .word) = false ∧
    misaligned (sys.isp + 3#32) .word = true ∧
    accessFails (failingAt .read 4 0x1004 sys) .read (sys.isp + 4#32) .word = true ∧
    al.wellFormed = true ∧ sys.condHolds al = true := by decide

theorem test_hyp_ReturnUndoesCall :
    CallRow sys (.call al 0x80) al 0x200 ∧ al.wellFormed = true ∧ sys.condHolds al = true ∧ sys.Inv ∧
    sys.CanPushTwo sys.isp ∧ aligned4 0x200 = true ∧
    answers (exec (.call al 0x80) sys) (fun t => !accessFails t .read t.isp .word &&
      !accessFails t .read (t.isp + 4#32) .word && !t.isDevice t.isp .word &&
      !t.isDevice (t.isp + 4#32) .word) = true :=
  ⟨.call .., by decide⟩

theorem test_hyp_SoftwareInterruptCompletes :
    SoftwareInterruptRow sys (.int al 0xFFFF) al 0xFFFF ∧ SoftwareInterruptRow sys (.cIntX 0 0) al 5 ∧
    al.wellFormed = true ∧ sys.condHolds al = true ∧ sys.flagI = false ∧
    State.flagI { sys with sr := 0x100 } = true :=
  ⟨.int .., .cIntX .., by decide⟩

theorem test_hyp_SleepAndBreakComplete :
    al.wellFormed = true ∧ sys.condHolds al = true ∧ user.condHolds al = true ∧ sys.flagP = false ∧
    user.flagP = true := by decide

theorem test_hyp_ReturnFromInterruptCompletes :
    (al.wellFormed = true ∧ sys.condHolds al = true ∧ sys.flagP = false ∧ misaligned sys.isp .word = false ∧
      accessFails sys .read sys.isp .word = false ∧ accessFails sys .read (sys.isp + 4#32) .word = false) ∧
    (aligned4 (loadBytes sys.mem (sys.isp + 4#32) .word) = true ∧
      (loadBytes sys.mem sys.isp .word).getLsbD 9 = false) ∧
    (let s : State := { sys with mem := storeBytes sys.mem sys.isp .word 0x200 }
     (loadBytes s.mem s.isp .word).getLsbD 9 = true ∧ aligned4 s.spc = true ∧
       aligned4 (State.spc { s with spc := 2 }) = false) ∧
    aligned4 (loadBytes (storeBytes sys.mem (sys.isp + 4#32) .word 2) (sys.isp + 4#32) .word) = false ∧
    misaligned (sys.isp + 1#32) .word = true ∧
    accessFails (failingAt .read 4 0x1000 sys) .read sys.isp .word = true := by decide

theorem test_hyp_ReservedOpcodesTrap :
    ReservedRow (.rsvd00 al 7 0xFFFF) al ∧ ReservedRow (.cRsvdD7 0xFF) al ∧ al.wellFormed = true ∧
    sys.condHolds al = true :=
  ⟨.rsvd00 .., .cRsvdD7 .., by decide⟩

theorem test_hyp_TrapEntryPushesAndVectors :
    (sys.mem.wf = true ∧ sys.CanEnter sys.systemStack (trapIndex .access) ∧ sys.flagP = false ∧
      sys.flagT = false) ∧
    (user.mem.wf = true ∧ user.CanEnter user.systemStack (trapIndex .breakTrap) ∧ user.flagP = true) := by decide

theorem test_hyp_FailedEntryHalts :
    (State.flagT { sys with sr := 0x800 } = true ∧ State.flagP { sys with sr := 0x800 } = false) ∧
    (let s := failingAt .write 4 0xFF8 sys
     ¬(s.flagT = true ∧ s.flagP = false) ∧ ¬ s.CanEnter s.systemStack (trapIndex .math) ∧
       ¬ s.CanEnter s.systemStack 255) := by decide

theorem test_hyp_InterruptEntryPushesAndVectors :
    (sys.mem.wf = true ∧ sys.CanEnter sys.systemStack 255 ∧ sys.flagP = false) ∧
    (user.mem.wf = true ∧ user.CanEnter user.systemStack 0 ∧ user.flagP = true) := by decide

theorem test_hyp_ReturnFromInterruptUndoesTrapEntry :
    sys.Inv ∧ sys.flagP = false ∧ sys.flagT = false ∧ sys.CanEnter sys.isp (trapIndex .math) ∧
    accessFails (sys.trapEntry .math) .read (sys.trapEntry .math).isp .word = false ∧
    accessFails (sys.trapEntry .math) .read ((sys.trapEntry .math).isp + 4#32) .word = false ∧
    State.isDevice (sys.trapEntry .math) (sys.trapEntry .math).isp .word = false ∧
    State.isDevice (sys.trapEntry .math) ((sys.trapEntry .math).isp + 4#32) .word = false := by decide

theorem test_hyp_ProtectedModeIsConfined :
    user.flagP = true ∧ answers (exec (.mov al 14 1) user) (fun t => t.flagP) = true ∧
    answers (exec (.rfi al) user) (fun t => !t.flagP) = true := by decide

end Sys2Proof.Tests
end

section
/-! PROOFS. The invariant: what every step keeps of a state, and what the entries, the reset sequence and the two
halves of a pair leave. -/

namespace Sys2Proof.Machine

/-! ## The invariant apart from the latch -/

/-- `State.Inv` without its clause on the latch: what also holds between the two halves of a pair. -/
structure State.Sound (s : State) : Prop where
  pc : aligned4 s.pc = true
  sr : s.sr &&& ~~~srMask = 0#16
  sii : clear2 s.sii = s.sii
  mem : s.mem.wf = true

theorem inv_iff {s : State} : s.Inv ↔ s.Sound ∧ s.latch = none :=
  ⟨fun ⟨hpc, hsr, hsii, hmem, hl⟩ => ⟨⟨hpc, hsr, hsii, hmem⟩, hl⟩,
    fun ⟨⟨hpc, hsr, hsii, hmem⟩, hl⟩ => ⟨hpc, hsr, hsii, hmem, hl⟩⟩

theorem Keeps.sound {s t : State} (h : Keeps s t) (hs : s.Sound) : t.Sound :=
  ⟨h.pc hs.pc, h.sr hs.sr, h.sii hs.sii, h.mem hs.mem⟩

/-- `pc` past the fetched word is aligned again (10_state.md R22). -/
theorem sound_advance {s : State} (h : s.Sound) : s.advance.Sound :=
  ⟨by simpa using h.pc, h.sr, h.sii, h.mem⟩

theorem sound_halt {s : State} (h : s.Sound) : s.halt.Sound :=
  ⟨h.pc, reserved_setBit h.sr 12 true (by decide), h.sii, h.mem⟩

/-- The switch to system mode clears a bit of `sr` and sets none. -/
theorem reserved_enterSystem {s : State} (h : s.sr &&& ~~~srMask = 0#16) :
    s.enterSystem.sr &&& ~~~srMask = 0#16 := by
  unfold State.enterSystem
  split_ifs
  · exact reserved_setBit h 9 false (by decide)
  · exact h

/-- Memory with two words pushed below `top` is canonical still. -/
theorem wf_pushTwo {m : Memory} (h : m.wf = true) (top first second : Word) :
    (storeBytes (storeBytes m (top - 4#32) .word first) (top - 8#32) .word second).wf = true :=
  wf_storeBytes (wf_storeBytes h _ _ _) _ _ _

/-- A trap entry ends at a vector, whose low two bits are dropped, or halts (60_exceptions.md R253, R255, R261). -/
theorem sound_trapEntry {s : State} (h : s.Sound) (k : Trap) : (s.trapEntry k).Sound := by
  by_cases hd : s.flagT = true ∧ s.flagP = false
  · rw [trapEntry_doubleTrap hd.1 hd.2]
    exact sound_halt h
  by_cases hc : s.CanEnter s.systemStack (trapIndex k)
  · rw [trapEntry_ok hd hc]
    exact ⟨aligned4_clear2 _, reserved_setBit (reserved_enterSystem h.sr) 11 true (by decide), by simpa using h.sii,
      wf_pushTwo h.mem _ _ _⟩
  · rw [trapEntry_fails hc]
    exact sound_halt h

/-- The same for an interrupt entry (R260). -/
theorem sound_interruptEntry {s : State} (h : s.Sound) (k : BitVec 8) : (s.interruptEntry k).Sound := by
  by_cases hc : s.CanEnter s.systemStack k
  · rw [interruptEntry_ok hc]
    have hsr : (s.enterSystem.withSrBit 12 false).sr &&& ~~~srMask = 0#16 :=
      reserved_setBit (reserved_enterSystem h.sr) 12 false (by decide)
    exact ⟨aligned4_clear2 _, reserved_setBit hsr 8 true (by decide), by simpa using h.sii, wf_pushTwo h.mem _ _ _⟩
  · rw [interruptEntry_fails hc]
    exact sound_halt h

theorem latch_interruptEntry (s : State) (k : BitVec 8) :
    (s.interruptEntry k).latch = s.latch ∨ (s.interruptEntry k).latch = none := by
  rcases interruptEntry_latch s k with h | h
  · exact .inl h
  · exact .inr (by rw [h]; rfl)

/-! ## What an instruction leaves -/

/-- The end of an instruction keeps the invariant: the one new `pc`, the `spc` of a switch, is checked (R252). -/
theorem sound_conclude {s t : State} (hs : s.Sound) (ht : t.Sound) : (s.conclude (.ok t)).Sound := by
  rcases conclude_cases s t with e | e | ⟨-, -, ha, e⟩
  · rw [e]; exact sound_trapEntry hs _
  · rw [e]; exact ht
  · rw [e]; exact ⟨ha, ht.sr, ht.sii, ht.mem⟩

theorem latch_conclude (s t : State) :
    (s.conclude (.ok t)).latch = t.latch ∨ (s.conclude (.ok t)).latch = none := by
  rcases conclude_cases s t with e | e | ⟨-, -, -, e⟩
  · exact .inr (by rw [e]; simp)
  · exact .inl (by rw [e])
  · exact .inl (by rw [e]; rfl)

/-- Each way an instruction can end keeps the invariant. -/
theorem Ends.sound {s t : State} {o : Host.Outcome State Fault Refusal} (h : Ends s o) (hs : s.Sound)
    (ho : o = .next t) : t.Sound := by
  subst ho
  cases h with
  | skip e => cases e; exact hs
  | trap k e => cases e; exact sound_trapEntry hs k
  | interrupt k e => cases e; exact sound_interruptEntry hs k
  | writes u hu e => cases e; exact sound_conclude hs (hu.sound hs)

/-- Each way an instruction can end keeps the pending half or drops it (46_compact.md R231). -/
theorem Ends.latch {s t : State} {o : Host.Outcome State Fault Refusal} (h : Ends s o) (ho : o = .next t) :
    t.latch = s.latch ∨ t.latch = none := by
  subst ho
  cases h with
  | skip e => cases e; exact .inl rfl
  | trap k e => cases e; exact .inr (trapEntry_latch s k)
  | interrupt k e => cases e; exact latch_interruptEntry s k
  | writes u hu e =>
    cases e
    rw [← hu.latch]
    exact latch_conclude s u

/-- With no half pending, each way an instruction can end keeps the whole invariant. -/
theorem Ends.inv {s t : State} {o : Host.Outcome State Fault Refusal} (h : Ends s o) (hs : s.Inv)
    (ho : o = .next t) : t.Inv := by
  obtain ⟨hsound, hl⟩ := inv_iff.1 hs
  refine inv_iff.2 ⟨h.sound hsound ho, ?_⟩
  rcases h.latch ho with e | e
  · exact e.trans hl
  · exact e

/-! ## What a fetched word leaves -/

/-- A rejected word traps or is skipped (30_encoding.md R77, R87). -/
theorem ends_runReject (e : Reject) (s : State) : Ends s (runReject e s) := by
  cases e with
  | mustBeZero g => exact ends_runStd keeps_reservedOpcode g s
  | compactWord => exact .trap _ rfl
  | reservedV => exact .trap _ rfl
  | reservedCond => exact .trap _ rfl
  | rrNotZero => exact .trap _ rfl
  | markerClear => exact .trap _ rfl

theorem ends_runHalf (h : Half) (s : State) : Ends s (runHalf h s) := by
  unfold runHalf
  split
  · exact exec_ends _ s
  · exact .trap _ rfl

/-- The second half, if it is still pending, runs with none pending (R231). -/
theorem inv_runLatched {s t : State} (hs : s.Sound) (h : runLatched s = .next t) : t.Inv := by
  unfold runLatched at h
  split at h
  · have hstart : State.Inv { s with latch := none, busTime := s.busTime + 1 } :=
      ⟨hs.pc, hs.sr, hs.sii, hs.mem, rfl⟩
    exact (ends_runHalf _ _).inv hstart h
  · cases h
    exact inv_iff.2 ⟨hs, ‹_›⟩

theorem inv_runPair {s t : State} {first second : Half} (hs : s.Sound) (h : runPair first second s = .next t) :
    t.Inv := by
  unfold runPair at h
  split at h
  case h_1 u hu =>
    have hlatched : State.Sound { s with latch := some second } := ⟨hs.pc, hs.sr, hs.sii, hs.mem⟩
    exact inv_runLatched ((ends_runHalf _ _).sound hlatched hu) h
  all_goals cases h

theorem inv_runWord {s t : State} {w : Word} (hs : s.Inv) (h : runWord w s = .next t) : t.Inv := by
  unfold runWord at h
  split_ifs at h
  · exact inv_runPair (inv_iff.1 hs).1 h
  · split at h
    · exact (exec_ends _ s).inv hs h
    · exact (ends_runReject _ s).inv hs h

theorem inv_fetchAndRun {s t : State} (hs : s.Inv) (h : fetchAndRun s = .next t) : t.Inv := by
  obtain ⟨hsound, hl⟩ := inv_iff.1 hs
  unfold fetchAndRun at h
  split at h
  · exact inv_runWord (inv_iff.2 ⟨sound_advance hsound, hl⟩) h
  · cases h
    exact inv_iff.2 ⟨sound_trapEntry hsound _, trapEntry_latch s _⟩

/-! ## The reset sequence (70_reset_and_hazards.md R291) -/

/-- The reset vector stands at address 0. -/
theorem vectorAddress_clearRegisters (s : State) : s.clearRegisters.vectorAddress 0#8 = 0#32 := by
  simp [State.vectorAddress, clear2]

theorem accessFails_clearRegisters (s : State) (kind : AccessKind) (a : Word) (w : Width) :
    accessFails s.clearRegisters kind a w = accessFails s kind a w :=
  accessFails_congr (by simp) kind a w

/-- The vector read goes through: `pc` is the word at address 0, low two bits dropped. -/
theorem performReset_ok {s : State} (h : accessFails s .read 0#32 .word = false) :
    s.performReset = { s.clearRegisters with pc := clear2 (s.clearRegisters.busValue .read 0#32 .word) } := by
  have hv : accessFails s.clearRegisters .read (s.clearRegisters.vectorAddress 0#8) .word = false := by
    rwa [vectorAddress_clearRegisters, accessFails_clearRegisters]
  simp only [State.performReset, resetPcMode, vector_ok hv, vectorAddress_clearRegisters]

/-- The vector read fails: a trap with T set in system mode, so a halt (60_exceptions.md R257). -/
theorem performReset_fails {s : State} (h : accessFails s .read 0#32 .word = true) :
    s.performReset = s.clearRegisters.halt := by
  have hv : accessFails s.clearRegisters .read (s.clearRegisters.vectorAddress 0#8) .word = true := by
    rwa [vectorAddress_clearRegisters, accessFails_clearRegisters]
  simp only [State.performReset, resetPcMode, vector_fails hv]
  exact trapEntry_doubleTrap (by simp [State.flagT]) (by simp [State.flagP]) _

/-- The halt adds F to I and T; `pc` and the latch are cleared already. -/
theorem halt_clearRegisters (s : State) : s.clearRegisters.halt = { s.clearRegisters with sr := 0x1900#16 } := by
  have hsr : setBit 0x0900#16 12 true = 0x1900#16 := by decide
  simp only [State.halt, State.withSrBit, State.clearRegisters_sr, hsr]
  rfl

theorem sound_clearRegisters {s : State} (h : s.mem.wf = true) : s.clearRegisters.Sound :=
  ⟨rfl, by simp [srMask], by simp [clear2], h⟩

theorem inv_performReset {s : State} (h : s.mem.wf = true) : s.performReset.Inv := by
  obtain ⟨-, hsr, hsii, hmem⟩ := sound_clearRegisters h
  cases hf : accessFails s .read 0#32 .word
  · rw [performReset_ok hf]
    exact ⟨aligned4_clear2 _, hsr, hsii, hmem, rfl⟩
  · rw [performReset_fails hf]
    exact inv_iff.2 ⟨sound_halt (sound_clearRegisters h), rfl⟩

/-! ## The boundary -/

theorem inv_interruptEntry {s : State} (h : s.Inv) (k : BitVec 8) : (s.interruptEntry k).Inv :=
  Ends.inv (.interrupt k rfl) h rfl

/-- Every event of a boundary keeps the invariant (60_exceptions.md R267). -/
theorem inv_boundary {s t : State} (hs : s.Inv) (h : boundary s = .next t) : t.Inv := by
  obtain ⟨hsound, hl⟩ := inv_iff.1 hs
  unfold boundary at h
  split at h
  case h_1 => cases h; exact hs
  case h_2 => cases h; exact inv_performReset hsound.mem
  case h_3 =>
    split at h
    · have hstart : State.Inv { s with nmiPending := s.nmiPending - 1 } := hs
      cases h
      exact inv_interruptEntry hstart _
    · split at h
      case h_1 k rest _ _ =>
        have hstart : State.Inv { s with irqPending := rest } := hs
        cases h
        exact inv_interruptEntry hstart k
      case h_2 =>
        split_ifs at h
        · cases h; exact hs
        · exact inv_fetchAndRun hs h

/-- With no half pending a step is a boundary. -/
theorem step_of_latch_none {s : State} (h : s.latch = none) : step s = boundary s := by
  simp only [step, stepCycle, h]

/-- Settles O13: with no half pending the step is a boundary, each event of which keeps the invariant; a pair keeps
all of it but the latch between its halves. -/
theorem stepKeepsInvariant : Obligations.StepKeepsInvariant := by
  intro s t hs h
  rw [step_of_latch_none (inv_iff.1 hs).2] at h
  exact inv_boundary hs h

/-- Settles O14. -/
theorem resetHasInvariant : Obligations.ResetHasInvariant := by
  refine ⟨?_, ?_, ?_, ?_, ?_⟩ <;> decide

/-- Settles O15: a read of r0 to r11 is an entry of the cleared vector, `dsp` and `isp` are cleared by name. -/
theorem resetRegisterValues : Obligations.ResetRegisterValues := by
  refine ⟨fun i hi => ?_, rfl, rfl, rfl, rfl, by decide⟩
  rcases reg_cases i with h | rfl | rfl | rfl | rfl
  · simp [State.readReg, h, State.reset]
  · rfl
  · rfl
  · exact absurd hi (by decide)
  · exact absurd hi (by decide)

/-- Settles O16: the sequence is the clearing of the registers and one vector read, whose failure is a trap with T
set. -/
theorem resetSequenceLoadsVector : Obligations.ResetSequenceLoadsVector :=
  fun s => ⟨performReset_ok, fun h => (performReset_fails h).trans (halt_clearRegisters s)⟩

end Sys2Proof.Machine
end

section
/-! PROOFS. The main registers, `sr`, the condition registers and the flags: what each write leaves
(10_state.md R20 to R32). -/

namespace Sys2Proof.Machine

/-! ## `WriteSR` (10_state.md R32) -/

/-- Bits 12:8 of a written value are all implemented. -/
theorem control_masked (v : Word) : (lower16 v &&& srMask).extractLsb' 8 5 = v.extractLsb' 8 5 := by
  have hm : ∀ i < 5, srMask.getLsbD (8 + i) = true := by decide
  apply BitVec.eq_of_getLsbD_eq
  intro i hi
  simp [lower16, hm i hi, hi, show 8 + i < 16 by omega]

/-- Bits 12:8 of an old value joined to the low byte of a new one. -/
theorem control_append_lower8 (old new : Half) :
    (0#3 ++ old.extractLsb' 8 5 ++ new.extractLsb' 0 8 : Half) = (old &&& 0x1F00#16) ||| (new &&& 0x00FF#16) := by
  have hhigh : ∀ i < 16, (0x1F00#16).getLsbD i = decide (8 ≤ i ∧ i < 13) := by decide
  have hlow : ∀ i < 16, (0x00FF#16).getLsbD i = decide (i < 8) := by decide
  apply BitVec.eq_of_getLsbD_eq
  intro i hi
  simp (disch := omega) only [BitVec.getLsbD_append, BitVec.getLsbD_extractLsb', BitVec.getLsbD_or,
    BitVec.getLsbD_and, hhigh i hi, hlow i hi]
  grind

/-- System mode takes the implemented bits. -/
theorem writeSr_system {s : State} (h : s.flagP = false) (v : Word) :
    s.writeSr v = .ok { s with sr := lower16 v &&& srMask } := by
  simp [State.writeSr, h]

/-- Protected mode, bits 12:8 written as they are: the low byte is taken. -/
theorem writeSr_sameControl {s : State} {v : Word} (h : s.flagP = true)
    (hc : (lower16 v &&& srMask).extractLsb' 8 5 = s.control) :
    s.writeSr v = .ok { s with sr := lower16 v &&& srMask } := by
  simp only [State.control] at hc
  simp [State.writeSr, h, hc]

/-- Protected mode, an attempt to change bits 12:8 with S set: trap 6. -/
theorem writeSr_traps {s : State} {v : Word} (h : s.flagP = true)
    (hc : (lower16 v &&& srMask).extractLsb' 8 5 ≠ s.control) (hS : s.flagS = true) :
    s.writeSr v = .error .srWrite := by
  simp only [State.control] at hc
  simp [State.writeSr, h, hc, hS]

/-- The same with S clear: bits 12:8 stay and the low byte is taken. -/
theorem writeSr_keepsControl {s : State} {v : Word} (h : s.flagP = true)
    (hc : (lower16 v &&& srMask).extractLsb' 8 5 ≠ s.control) (hS : s.flagS = false) :
    s.writeSr v = .ok { s with sr := (s.sr &&& 0x1F00#16) ||| ((lower16 v &&& srMask) &&& 0x00FF#16) } := by
  simp only [State.control] at hc
  simp [State.writeSr, h, hc, hS, control_append_lower8]

/-! ## The halves of r10 and r11 (R21, R24) -/

theorem readReg_ten (s : State) : s.readReg 10#4 = s.cc 1#2 ++ s.cc 0#2 :=
  (higher16_append_lower16 s.r[10]).symm

theorem readReg_eleven (s : State) : s.readReg 11#4 = s.cc 3#2 ++ s.cc 2#2 :=
  (higher16_append_lower16 s.r[11]).symm

/-- A condition register is a part of the general registers and of nothing else. -/
theorem setCc_eq (s : State) (k : BitVec 2) (v : Half) : s.setCc k v = { s with r := (s.setCc k v).r } := by
  unfold State.setCc
  split <;> rfl

/-! ## The flag update (R26, R28) -/

theorem setFlags_of_f {s : State} {g : Guard} (h : g.cond = .f) (u : FlagUpdate) :
    s.setFlags g u = s.setCc g.rr (applyFlags u (s.cc g.rr)) := by
  simp [State.setFlags, h]

theorem setFlags_of_ne_f {s : State} {g : Guard} (h : g.cond ≠ .f) (u : FlagUpdate) :
    s.setFlags g u = { s with sr := applyFlags u s.sr } := by
  simp [State.setFlags, h]

theorem flagsReplaced_applyFlags (u : FlagUpdate) (w : Half) : FlagsReplaced w (applyFlags u w) u :=
  getLsbD_applyFlags u w

/-! ## The statements -/

/-- Settles O17. -/
theorem registerWriteThenRead : Obligations.RegisterWriteThenRead := by
  refine fun s x v => ⟨fun hx => ⟨writeReg_general hx v, ?_, fun j hj => ?_⟩, ?_, ?_⟩
  · rw [readReg_setGeneral hx, if_pos rfl]
  · rw [readReg_setGeneral hx, if_neg hj]
  · rintro rfl
    exact ⟨writeReg_sr s v, readReg_sr s⟩
  · rintro rfl
    refine ⟨readReg_pc s, fun h => writePc_ok ?_, fun h => writePc_error ?_⟩
    · simp [aligned4, h]
    · simp [aligned4, h]

/-- Settles O18. -/
theorem statusRegisterWrite : Obligations.StatusRegisterWrite :=
  fun _ v => ⟨fun hp => writeSr_system hp v, writeSr_sameControl, writeSr_traps, writeSr_keepsControl⟩

/-- Settles O19. -/
theorem conditionRegistersAreHalves : Obligations.ConditionRegistersAreHalves := by
  refine fun s k v u => ⟨⟨rfl, rfl, rfl, rfl⟩, ⟨rfl, rfl, rfl, rfl⟩, readReg_ten s, readReg_eleven s, ?_,
    fun j hj => ?_, readReg_setCc s k v, setCc_eq s k v⟩
  · rw [cc_setCc, if_pos rfl]
  · rw [cc_setCc, if_neg hj]

/-- Settles O20. -/
theorem flagUpdateIsRedirected : Obligations.FlagUpdateIsRedirected := by
  intro s g u
  constructor
  · intro hg
    rw [setFlags_of_ne_f hg]
    exact ⟨flagsReplaced_applyFlags u s.sr, rfl⟩
  · intro hg
    rw [setFlags_of_f hg]
    refine ⟨?_, setCc_eq s _ _, fun k hk => ?_, readReg_setCc s _ _⟩
    · rw [cc_setCc, if_pos rfl]
      exact flagsReplaced_applyFlags u _
    · rw [cc_setCc, if_neg hk]

end Sys2Proof.Machine
end

section
/-! PROOFS. The forms with one result: every row of the tables is one write of a register and what `post` adds, so
destinations 14 and 15 and the frame are settled for all rows at once. -/

namespace Sys2Proof.Machine

open Sys2Proof.Rows

/-! ## What the shared statements of a row come to -/

theorem writeAlu_eq (g : Guard) (x : Reg) (o : AluOut) (s : State) :
    writeAlu g x o s = (s.writeReg x o.value).map fun t => t.setFlags g o.flags := rfl

/-- The write of r10 cannot trap. -/
theorem writeWide_eq (g : Guard) (x : Reg) (o : WideOut) (s : State) :
    writeWide g x o s =
      (s.writeReg x o.first).map fun t => (t.setGeneral 10#4 o.second).setFlags g o.flags := by
  unfold writeWide
  cases s.writeReg x o.first with
  | error k => rfl
  | ok t =>
    simp only [bind, Except.bind, writeReg_general (x := 10#4) (by decide)]
    rfl

/-- The base of a compact load: `dsp` with offset 0 (46_compact.md R237). -/
theorem readReg_dsp_add_immMem_zero (s : State) : s.readReg 12#4 + immMem 0#8 = s.dsp := by
  simp [immMem]

/-- A load: the read, then the merged value to `x` (42_load.md R160). -/
def loadTo (s : State) (x : Reg) (w : Width) (a : Word) : Effect :=
  (memRead s .read a w).bind fun v => s.writeReg x (mergeLoad w (s.readReg x) v)

/-- The shared statement of the loads is that load at base plus offset. -/
theorem loadAt_eq (w : Width) (x y : Reg) (off : Word) (s : State) :
    loadAt w x y off s = loadTo s x w (s.readReg y + off) := rfl

theorem loadTo_ok {s : State} {w : Width} {a : Word} (h : s.CanAccess .read a w) (x : Reg) :
    loadTo s x w a = s.writeReg x (mergeLoad w (s.readReg x) (s.busValue .read a w)) := by
  rw [loadTo, memRead_ok h]
  rfl

/-! ## How `exec` runs a row -/

/-- In the state `s`, `exec` runs `i` under the guard `g` as statements that give `e`. -/
def RunsTo (s : State) (i : Instr) (g : Guard) (e : Effect) : Prop :=
  ∃ body : State → Effect, exec i s = runStd g body s ∧ body s = e

theorem runsTo_std {s : State} {i : Instr} {g : Guard} {body : State → Effect} {e : Effect}
    (h : exec i s = runStd g body s) (he : body s = e) : RunsTo s i g e :=
  ⟨body, h, he⟩

/-- A compact instruction runs as a standard one that is unconditional (46_compact.md R230). -/
theorem runsTo_compact {s : State} {i : Instr} {body : State → Effect} {e : Effect}
    (h : exec i s = runCompact body s) (he : body s = e) : RunsTo s i .always e :=
  ⟨body, by rw [h, runCompact_eq, runStd_of_holds always_wellFormed (always_condHolds s)], he⟩

theorem RunsTo.exec_of_holds {s : State} {i : Instr} {g : Guard} {e : Effect} (h : RunsTo s i g e)
    (hw : g.wellFormed = true) (hc : s.condHolds g = true) : exec i s = .next (s.conclude e) := by
  obtain ⟨body, hb, rfl⟩ := h
  rw [hb, runStd_of_holds hw hc]

theorem RunsTo.exec_of_false {s : State} {i : Instr} {g : Guard} {e : Effect} (h : RunsTo s i g e)
    (hw : g.wellFormed = true) (hc : s.condHolds g = false) : exec i s = .next s := by
  obtain ⟨body, hb, -⟩ := h
  rw [hb, runStd_of_false hw hc]

theorem runsTo_aluRegister {s : State} {i : Instr} {g : Guard} {x : Reg} {o : AluOut}
    (h : AluRegisterRow s i g x o) : RunsTo s i g (writeAlu g x o s) := by
  cases h with
  | add | sub | and | or | xor | shl | shr | sar | rotl | rotr => exact runsTo_std rfl rfl
  | cAdd | cSub | cAnd | cOr | cXor | cShl | cShr | cSar | cRotl | cRotr => exact runsTo_compact rfl rfl

theorem runsTo_aluImmediate {s : State} {i : Instr} {g : Guard} {x : Reg} {o : AluOut}
    (h : AluImmediateRow s i g x o) : RunsTo s i g (writeAlu g x o s) := by
  cases h with
  | addN | subN | andN | orN | xorN | shlN | shrN | sarN | rotlN | rotrN | addN12 | subN12 => exact runsTo_std rfl rfl
  | cAddN | cSubN | cAndN | cOrN | cXorN | cShlN | cShrN | cSarN | cRotlN | cRotrN | cAddN12 | cSubN12 =>
    exact runsTo_compact rfl rfl

theorem runsTo_unary {s : State} {i : Instr} {g : Guard} {x : Reg} {o : AluOut} (h : UnaryRow s i g x o) :
    RunsTo s i g (writeAlu g x o s) := by
  cases h with
  | not | sxb | sxw | zxb | zxw => exact runsTo_std rfl rfl
  | cNot | cSxb | cSxw | cZxb | cZxw => exact runsTo_compact rfl rfl

theorem runsTo_multiply {s : State} {i : Instr} {g : Guard} {x : Reg} {o : WideOut} (h : MultiplyRow s i g x o) :
    RunsTo s i g (writeWide g x o s) := by
  cases h with
  | umul | smul | umulN | smulN => exact runsTo_std rfl rfl
  | cUmul | cSmul | cUmulN | cSmulN => exact runsTo_compact rfl rfl

/-- A division traps for a zero divisor before it writes anything (40_alu.md R104). -/
theorem runsTo_divide {s : State} {i : Instr} {g : Guard} {x : Reg} {b : Word} {o : WideOut}
    (h : DivideRow s i g x b o) : RunsTo s i g (if b = 0#32 then .error .math else writeWide g x o s) := by
  cases h with
  | udiv | sdiv | udivN | sdivN => exact runsTo_std rfl rfl
  | cUdiv | cSdiv | cUdivN | cSdivN => exact runsTo_compact rfl rfl

theorem runsTo_move {s : State} {i : Instr} {g : Guard} {x : Reg} {v : Word} (h : MoveRow s i g x v) :
    RunsTo s i g (s.writeReg x v) := by
  cases h with
  | mov | mvhh | mvhl | mvlh | mvll | lil | lih => exact runsTo_std rfl rfl
  | cMov | cMvhh | cMvhl | cMvlh | cMvll => exact runsTo_compact rfl rfl
  | cLil n =>
    exact runsTo_compact (body := fun s => s.writeReg 10#4 (withLower16 (s.readReg 10#4) (compactN16 n))) rfl rfl
  | cLih n =>
    exact runsTo_compact (body := fun s => s.writeReg 10#4 (withHigher16 (s.readReg 10#4) (compactN16 n))) rfl rfl

theorem runsTo_load {s : State} {i : Instr} {g : Guard} {x : Reg} {w : Width} {a : Word} (h : LoadRow s i g x w a) :
    RunsTo s i g (loadTo s x w a) := by
  cases h with
  | lb | lh | lw | lbx | lhx | lwx => exact runsTo_std rfl (loadAt_eq ..)
  | cLbx | cLhx | cLwx => exact runsTo_compact rfl (loadAt_eq ..)
  | cLb | cLh | cLw =>
    rw [← readReg_dsp_add_immMem_zero s]
    exact runsTo_compact rfl (loadAt_eq ..)

/-- Every form with one result writes it, then does what `post` says. -/
theorem runsTo_result {s : State} {i : Instr} {g : Guard} {x : Reg} {v : Word} {post : State → State}
    (h : ResultRow s i g x v post) : RunsTo s i g ((s.writeReg x v).map post) := by
  have map_id : ∀ e : Effect, e.map (fun t => t) = e := fun e => by cases e <;> rfl
  cases h with
  | aluRegister o h => rw [← writeAlu_eq]; exact runsTo_aluRegister h
  | aluImmediate o h => rw [← writeAlu_eq]; exact runsTo_aluImmediate h
  | unary o h => rw [← writeAlu_eq]; exact runsTo_unary h
  | multiply o h => rw [← writeWide_eq]; exact runsTo_multiply h
  | divide b o h hb => rw [← writeWide_eq]; simpa only [if_neg hb] using runsTo_divide h
  | move _ h => rw [map_id]; exact runsTo_move h
  | load w a h ha => rw [map_id, ← loadTo_ok ha]; exact runsTo_load h

/-! ## What `post` leaves -/

/-- `u` is `t` with at most the general registers r10 and r11 and the flags Z, C, V, N of `sr` changed. -/
structure PostFrame (t u : State) : Prop where
  eq : u = { t with r := u.r, sr := u.sr }
  readReg : ∀ j : Reg, j ≠ 10#4 → j ≠ 11#4 → j ≠ 14#4 → u.readReg j = t.readReg j
  sr : ∀ b, b ∉ [0, 1, 6, 7] → u.sr.getLsbD b = t.sr.getLsbD b

namespace PostFrame

theorem refl (t : State) : PostFrame t t := ⟨rfl, fun _ _ _ _ => rfl, fun _ _ => rfl⟩

theorem trans {t u v : State} (h : PostFrame t u) (k : PostFrame u v) : PostFrame t v where
  eq := by
    have := k.eq
    rw [h.eq] at this
    exact this
  readReg j h10 h11 h14 := (k.readReg j h10 h11 h14).trans (h.readReg j h10 h11 h14)
  sr b hb := (k.sr b hb).trans (h.sr b hb)

theorem setFlags (t : State) (g : Guard) (u : FlagUpdate) : PostFrame t (t.setFlags g u) where
  eq := by
    by_cases hg : g.cond = .f
    · rw [setFlags_of_f hg, State.setCc_sr]
      exact setCc_eq t _ _
    · rw [setFlags_of_ne_f hg]
  readReg j h10 h11 h14 := readReg_setFlags t g u j h10 h11 h14
  sr b hb := by
    rw [State.setFlags_sr]
    split_ifs
    · rfl
    · have hb' : b ≠ 0 ∧ b ≠ 1 ∧ b ≠ 6 ∧ b ≠ 7 := by simpa using hb
      rw [getLsbD_applyFlags]
      simp [hb']

theorem setGeneral_ten (t : State) (v : Word) : PostFrame t (t.setGeneral 10#4 v) where
  eq := rfl
  readReg j h10 _ _ := by rw [readReg_setGeneral (by decide), if_neg h10]
  sr _ _ := rfl

theorem flagP {t u : State} (h : PostFrame t u) : u.flagP = t.flagP := h.sr 9 (by decide)

/-- The fields that `post` does not touch. -/
theorem fields {t u : State} (h : PostFrame t u) :
    u.mem = t.mem ∧ u.ssp = t.ssp ∧ u.sii = t.sii ∧ u.spc = t.spc ∧ u.latch = t.latch ∧ t.SameInputs u ∧
      u.busTime = t.busTime := by
  rw [h.eq]
  exact ⟨rfl, rfl, rfl, rfl, rfl, ⟨rfl, rfl, rfl, rfl, rfl⟩, rfl⟩

/-- The exchange of a switch after `post`, told by the registers before it. -/
theorem exchange {t u : State} (h : PostFrame t u) :
    u.exchange = { u with isp := t.ssp, ssp := t.isp, pc := t.spc, spc := t.pc } := by
  rw [h.eq]
  rfl

end PostFrame

/-- `post` is nothing, a flag update, or the second word to r10 and a flag update. -/
theorem postFrame_of_result {s : State} {i : Instr} {g : Guard} {x : Reg} {v : Word} {post : State → State}
    (h : ResultRow s i g x v post) (t : State) : PostFrame t (post t) := by
  cases h with
  | aluRegister | aluImmediate | unary => exact PostFrame.setFlags t _ _
  | multiply | divide => exact (PostFrame.setGeneral_ten t _).trans (PostFrame.setFlags _ _ _)
  | move | load => exact PostFrame.refl t

/-! ## A result that goes to `sr` -/

/-- Bit 9 is implemented. -/
theorem getLsbD_nine_of_srMask (v : Word) : (lower16 v &&& srMask).getLsbD 9 = v.getLsbD 9 := by
  simp [lower16, srMask]

/-- Protected mode, when the write does not trap: bits 12:8 stay and the implemented flags are taken (R32). -/
theorem writeSr_protected {s : State} {v : Word} (hp : s.flagP = true)
    (h : v.extractLsb' 8 5 = s.control ∨ s.flagS = false) :
    s.writeSr v = .ok { s with sr := (s.sr &&& 0x1F00#16) ||| (lower16 v &&& 0x00C3#16) } := by
  have hlow : lower16 v &&& srMask &&& 0x00FF#16 = lower16 v &&& 0x00C3#16 := by
    rw [BitVec.and_assoc]; rfl
  by_cases hc : (lower16 v &&& srMask).extractLsb' 8 5 = s.control
  · have hsame : lower16 v &&& srMask = (s.sr &&& 0x1F00#16) ||| (lower16 v &&& 0x00C3#16) := by
      calc lower16 v &&& srMask
          = (lower16 v &&& srMask &&& 0x1F00#16) ||| (lower16 v &&& srMask &&& 0x00FF#16) := by
            rw [← BitVec.and_or_distrib_left, BitVec.and_assoc]; rfl
        _ = 0#3 ++ s.control ++ (lower16 v &&& srMask).extractLsb' 0 8 := by
            rw [← hc, control_append_lower8]
        _ = (s.sr &&& 0x1F00#16) ||| (lower16 v &&& 0x00C3#16) := by
            rw [State.control, control_append_lower8, hlow]
    rw [writeSr_sameControl hp hc, hsame]
  · have hS : s.flagS = false := h.resolve_left (control_masked v ▸ hc)
    rw [writeSr_keepsControl hp hc hS, hlow]

/-- No switch follows the statements of protected mode. -/
theorem conclude_of_protected {s : State} (hp : s.flagP = true) (t : State) : s.conclude (.ok t) = t :=
  conclude_ok fun hp' => absurd (hp.symm.trans hp') (by decide)

/-! ## The frame of a register write -/

theorem sameInputs_trans {s t u : State} (h : s.SameInputs t) (k : t.SameInputs u) : s.SameInputs u := by
  obtain ⟨hmap, hfail, hirq, hnmi, hline⟩ := h
  obtain ⟨kmap, kfail, kirq, knmi, kline⟩ := k
  exact ⟨kmap.trans hmap, kfail.trans hfail, kirq.trans hirq, knmi.trans hnmi, kline.trans hline⟩

/-- Only a write of `sr` with bit 9 set leaves system mode. -/
theorem flagP_of_writeReg {s u : State} {x : Reg} {v : Word} (h : s.writeReg x v = .ok u)
    (h9 : x = 14#4 → v.getLsbD 9 = false) (hp : s.flagP = false) : u.flagP = false := by
  by_cases hx : x = 14#4
  · subst hx
    rw [writeReg_sr, writeSr_system hp] at h
    cases h
    exact (getLsbD_nine_of_srMask v).trans (h9 rfl)
  · obtain ⟨-, -, -, -, -, -, -, -, hsr⟩ := writeReg_frame h
    simpa only [State.flagP, hsr hx] using hp

/-! ## The statements -/

/-- Settles O35: the write of `pc` succeeds or traps, and `post` does not change the mode. -/
theorem resultToProgramCounter : Obligations.ResultToProgramCounter := by
  rintro s i g x v post h hw hc rfl
  rw [(runsTo_result h).exec_of_holds hw hc, writeReg_pc]
  refine ⟨fun ha => ?_, fun ha => ?_⟩
  · rw [writePc_ok (by simp [aligned4, ha])]
    exact congrArg _ (conclude_ok fun hp => (postFrame_of_result h _).flagP.trans hp)
  · rw [writePc_error (by simp [aligned4, ha])]
    rfl

/-- Settles O36: the write of `sr` in either mode, then `post`, then the end of the instruction, which looks at the
bit 9 that was written. -/
theorem resultToStatusRegister : Obligations.ResultToStatusRegister := by
  rintro s i g x v post h hw hc rfl
  rw [(runsTo_result h).exec_of_holds hw hc, writeReg_sr]
  refine ⟨fun hp => ?_, fun hp => ?_⟩
  · rw [writeSr_system hp]
    have frame := postFrame_of_result h { s with sr := lower16 v &&& srMask }
    have hP : (post { s with sr := lower16 v &&& srMask }).flagP = v.getLsbD 9 :=
      frame.flagP.trans (getLsbD_nine_of_srMask v)
    obtain ⟨-, -, -, hspc, -⟩ := frame.fields
    refine ⟨fun h9 => ?_, fun h9 ha => ?_, fun h9 ha => ?_⟩
    · exact congrArg _ (conclude_ok fun _ => hP.trans h9)
    · have hal : aligned4 s.spc = true := by simp [aligned4, ha]
      exact congrArg _ ((conclude_switch hp (hP.trans h9) (by rwa [hspc])).trans frame.exchange)
    · have hal : aligned4 s.spc = false := by simp [aligned4, ha]
      exact congrArg _ (conclude_switch_misaligned hp (hP.trans h9) (by rwa [hspc]))
  · refine ⟨fun he => ?_, fun _ hS => ?_, fun he hS => ?_⟩
    · rw [writeSr_protected hp (.inl he)]
      exact congrArg _ (conclude_of_protected hp _)
    · rw [writeSr_protected hp (.inr hS)]
      exact congrArg _ (conclude_of_protected hp _)
    · rw [writeSr_traps hp (by rwa [control_masked]) hS]
      rfl

/-- Settles O37: a skip leaves everything, and a completed row is a register write and `post`, each with its frame. -/
theorem resultFormsFrame : Obligations.ResultFormsFrame := by
  intro s t i g x v post h hw hsys ht
  cases hc : s.condHolds g
  · rw [(runsTo_result h).exec_of_false hw hc] at ht
    cases ht
    exact .inr ⟨fun _ => rfl, rfl, rfl, rfl, ⟨rfl, rfl, rfl, rfl, rfl⟩, rfl, rfl, fun _ _ _ _ _ => rfl,
      fun _ _ _ => rfl⟩
  · rw [(runsTo_result h).exec_of_holds hw hc] at ht
    cases hr : s.writeReg x v with
    | error k =>
      rw [hr] at ht
      cases ht
      exact .inl ⟨k, rfl⟩
    | ok u =>
      obtain ⟨hmem, hssp, hsii, hspc, hlatch, hin, htime, hregs, hsr⟩ := writeReg_frame hr
      have frame := postFrame_of_result h u
      obtain ⟨kmem, kssp, ksii, kspc, klatch, kin, ktime⟩ := frame.fields
      have hend : s.conclude (.ok (post u)) = post u := conclude_ok fun hp =>
        frame.flagP.trans (flagP_of_writeReg hr (fun hx => hsys hx hp) hp)
      have ht' : t = post u := by
        rw [hr] at ht
        cases ht
        exact hend
      subst ht'
      exact .inr ⟨fun a => by rw [kmem, hmem], kssp.trans hssp, ksii.trans hsii, kspc.trans hspc,
        sameInputs_trans hin kin, ktime.trans htime, klatch.trans hlatch,
        fun j hx h10 h11 h14 => (frame.readReg j h10 h11 h14).trans (hregs j hx),
        fun hx b hb => (frame.sr b hb).trans (by rw [hsr hx])⟩

end Sys2Proof.Machine
end

section
/-! PROOFS. Protected mode: what an instruction can do to the mode and to what the mode protects; and the step that
runs a standard word. -/

namespace Sys2Proof.Machine

/-! ## The mode after an entry (60_exceptions.md R252, R255, R260) -/

/-- The switch that an entry begins with clears P. -/
theorem enterSystem_flagP (s : State) : s.enterSystem.flagP = false := by
  unfold State.enterSystem
  split_ifs with hp
  · show (setBit s.sr 9 false).getLsbD 9 = false
    rw [getLsbD_setBit]
    rfl
  · simpa using hp

/-- Setting or clearing another bit of `sr` leaves P clear. -/
theorem getLsbD_nine_setBit {v : Half} (h : v.getLsbD 9 = false) {i : Nat} (hi : i ≠ 9) (b : Bool) :
    (setBit v i b).getLsbD 9 = false := by
  rw [getLsbD_setBit, if_neg fun he => hi he.1.symm, h]

/-- A trap ends in system mode, unless it halts. -/
theorem trapEntry_flagP (s : State) (k : Trap) : s.trapEntry k = s.halt ∨ (s.trapEntry k).flagP = false := by
  by_cases hd : s.flagT = true ∧ s.flagP = false
  · exact .inl (trapEntry_doubleTrap hd.1 hd.2 k)
  by_cases hc : s.CanEnter s.systemStack (trapIndex k)
  · right
    rw [trapEntry_ok hd hc]
    exact getLsbD_nine_setBit (enterSystem_flagP s) (by decide) true
  · exact .inl (trapEntry_fails hc)

/-- The same for an interrupt. -/
theorem interruptEntry_flagP (s : State) (k : BitVec 8) :
    s.interruptEntry k = s.halt ∨ (s.interruptEntry k).flagP = false := by
  by_cases hc : s.CanEnter s.systemStack k
  · right
    rw [interruptEntry_ok hc]
    exact getLsbD_nine_setBit (getLsbD_nine_setBit (enterSystem_flagP s) (by decide) false) (by decide) true
  · exact .inl (interruptEntry_fails hc)

/-! ## Confinement (R27, R276) -/

/-- What a protected mode state and what comes of it agree on while the mode is kept. -/
abbrev Confined (s t : State) : Prop :=
  t.ssp = s.ssp ∧ t.sii = s.sii ∧ t.spc = s.spc ∧ (t.control = s.control ∨ t = s.halt)

/-- An entry that does not leave protected mode is the halt. -/
theorem confined_of_entry {s t : State} (h : t = s.halt ∨ t.flagP = false) (hp : t.flagP = true) :
    Confined s t := by
  rcases h with rfl | hf
  · exact ⟨rfl, rfl, rfl, .inr rfl⟩
  · exact absurd (hp.symm.trans hf) (by decide)

/-- Settles O60: an instruction ends in a skip, an entry, or statements, which in protected mode keep what the mode
protects. -/
theorem protectedModeIsConfined : Obligations.ProtectedModeIsConfined := by
  intro i s t hp ht
  have hends := exec_ends i s
  rw [ht] at hends
  have noExit : ∀ u : State, u.control = s.control → ¬ u.flagP = false := fun u hu hf =>
    absurd (hp.symm.trans ((flagP_of_control hu).symm.trans hf)) (by decide)
  cases hends with
  | skip e =>
    cases e
    exact ⟨fun _ => ⟨rfl, rfl, rfl, .inl rfl⟩, fun hf => absurd hf (noExit _ rfl)⟩
  | trap k e =>
    cases e
    exact ⟨confined_of_entry (trapEntry_flagP s k), fun _ => .inl ⟨k, rfl⟩⟩
  | interrupt k e =>
    cases e
    exact ⟨confined_of_entry (interruptEntry_flagP s k), fun _ => .inr ⟨k, rfl⟩⟩
  | writes u hu e =>
    rw [conclude_of_protected hp] at e
    cases e
    obtain ⟨hssp, hsii, hspc, hcontrol⟩ := hu.protectedMode hp
    exact ⟨fun _ => ⟨hssp, hsii, hspc, .inl hcontrol⟩, fun hf => absurd hf (noExit _ hcontrol)⟩

/-! ## A standard word -/

/-- An accepted word runs as its instruction (30_encoding.md R77). -/
theorem runWord_of_decodeStd {w : Word} {i : Instr} (h : decodeStd w = .ok i) (s : State) :
    runWord w s = exec i s := by
  obtain ⟨-, hm, -⟩ := decodeStd_ok h
  simp [runWord, hm, h]

/-- Settles O5. -/
theorem stepRunsStandardWord : Obligations.StepRunsStandardWord := by
  intro s w i hf hd
  rw [step_of_fetches hf, runWord_of_decodeStd hd]
  rfl

end Sys2Proof.Machine
end

section
/-! PROOFS. Memory: a load after a store at the same address. -/

namespace Sys2Proof.Machine

/-- The lane of a byte is a byte of the access. -/
theorem byteLane_lt {n j : Nat} (h : j < n) : byteLane n j < n := by
  unfold byteLane
  cases byteOrder with
  | little => exact h
  | big => simp only; omega

/-- Either byte order is its own inverse (20_memory.md R52). -/
theorem byteLane_byteLane {n j : Nat} (h : j < n) : byteLane n (byteLane n j) = j := by
  unfold byteLane
  cases byteOrder with
  | little => rfl
  | big => simp only; omega

/-- The byte that a load takes for byte `j` of its value is the one a store put there, under either byte order. -/
theorem readByte_lane_of_storedAt {m after : Memory} {a v : Word} {w : Width} (h : StoredAt m after a w v) {j : Nat}
    (hj : j < widthBytes w) : readByte after (byteAddress a (byteLane (widthBytes w) j)) = valueByte v j := by
  obtain ⟨hbytes, -⟩ := h
  rw [hbytes _ (byteLane_lt hj)]
  exact congrArg (valueByte v) (byteLane_byteLane hj)

theorem valueByte_zero (v : Word) : valueByte v 0 = lower8 v := rfl

/-- Two adjacent bytes of a value make its low half. -/
theorem valueByte_append_half (v : Word) : valueByte v 1 ++ valueByte v 0 = lower16 v := by
  simp only [valueByte, lower16]
  exact BitVec.extractLsb'_append_extractLsb'_eq_extractLsb' (by decide)

/-- What a store wrote, a load at the same address reads: the low bytes of the value (20_memory.md R52, R55, R56). -/
theorem loadBytes_storeBytes {m : Memory} (h : m.wf = true) (a : Word) (w : Width) (v : Word) :
    loadBytes (storeBytes m a w v) a w = lowBytes w v := by
  have lane := fun j (hj : j < widthBytes w) =>
    readByte_lane_of_storedAt (storedAt_storeBytes h a w v) hj
  cases w with
  | byte =>
    have hbyte := lane 0 (by decide)
    have hzero : byteLane 1 0 = 0 := Nat.lt_one_iff.mp (byteLane_lt Nat.one_pos)
    simp only [widthBytes, hzero, byteAddress_zero] at hbyte
    simp only [loadBytes, lowBytes, hbyte, valueByte_zero]
  | half =>
    have low := lane 0 (by decide)
    have high := lane 1 (by decide)
    simp only [widthBytes] at low high
    simp only [loadBytes, lowBytes, low, high, valueByte_append_half]
  | word => exact loadBytes_storeBytes_word h a v

/-- `lowBytes` keeps a value modulo the width of the access. -/
theorem toNat_lowBytes (w : Width) (v : Word) :
    (lowBytes w v).toNat = v.toNat % 2 ^ (8 * widthBytes w) := by
  cases w with
  | byte => simp [lowBytes, lower8, widthBytes]; omega
  | half => simp [lowBytes, lower16, widthBytes]; omega
  | word => exact (Nat.mod_eq_of_lt v.isLt).symm

/-- Settles O39: a store's bytes by `storedAt_storeBytes`, the value read back by `loadBytes_storeBytes`. -/
theorem storedBytesReadBack : Obligations.StoredBytesReadBack := by
  refine ⟨fun m a w v hm => ⟨wf_storeBytes hm a w v, storedAt_storeBytes hm a w v, ?_⟩,
    fun s a w v hm hwrite hread => ?_⟩
  · rw [loadBytes_storeBytes hm]
    cases w <;> rfl
  · refine ⟨_, memWrite_ok v hwrite, rfl, storedAt_storeBytes hm a w v, _, memRead_ok hread, busValue_lt _ _ _ _, ?_⟩
    intro hmemory
    rw [busValue_memory (s := { s with mem := storeBytes s.mem a w v }) hmemory, loadBytes_storeBytes hm,
      toNat_lowBytes]

end Sys2Proof.Machine
end

section
/-! PROOFS. Decoding and encoding agree: every instruction decodes from its own bits, and every accepted word or
halfword encodes back to itself; the must-be-zero operand bits decide which words are accepted (30_encoding.md R70 to
R98). -/

namespace Sys2Proof

open Machine Rows

/-! ## Case analysis on a nibble -/

/-- Each of the sixteen values of a 4-bit field by name, as the opcode tables are laid out. -/
theorem nibble_cases {motive : BitVec 4 → Prop} (is0 : motive 0x0#4) (is1 : motive 0x1#4) (is2 : motive 0x2#4)
    (is3 : motive 0x3#4) (is4 : motive 0x4#4) (is5 : motive 0x5#4) (is6 : motive 0x6#4) (is7 : motive 0x7#4)
    (is8 : motive 0x8#4) (is9 : motive 0x9#4) (isA : motive 0xA#4) (isB : motive 0xB#4) (isC : motive 0xC#4)
    (isD : motive 0xD#4) (isE : motive 0xE#4) (isF : motive 0xF#4) (o : BitVec 4) : motive o := by
  obtain ⟨⟨i, hi⟩⟩ := o
  interval_cases i <;> assumption

/-- A byte is its two nibbles. -/
theorem byte_eq_append (op : BitVec 8) : ∃ hi lo : BitVec 4, op = hi ++ lo :=
  ⟨compactQ op, compactW op, (compactQ_append_compactW op).symm⟩

/-! ## The operand half is its fields -/

section
variable {lo : Half}

theorem loXYZ_operands (h : lo.extractLsb' 12 4 = 0#4) : loXYZ (operandX lo) (operandY lo) (operandZ lo) = lo := by
  rw [loXYZ, ← h]
  apply BitVec.eq_of_getLsbD_eq
  intro i hi
  simp (disch := omega) only [operandX, operandY, operandZ, BitVec.getLsbD_extractLsb', BitVec.getLsbD_append]
  grind

theorem loXYN_operands : loXYN (operandX lo) (operandY lo) (operandN8 lo) = lo := by
  apply BitVec.eq_of_getLsbD_eq
  intro i hi
  simp (disch := omega) only [loXYN, operandX, operandY, operandN8, BitVec.getLsbD_extractLsb', BitVec.getLsbD_append]
  grind

theorem loXY_operands (h : lo.extractLsb' 8 8 = 0#8) : loXY (operandX lo) (operandY lo) = lo := by
  rw [loXY, ← h]
  exact loXYN_operands

theorem loXN_operands : loXN (operandX lo) (operandN12 lo) = lo := by
  apply BitVec.eq_of_getLsbD_eq
  intro i hi
  simp (disch := omega) only [loXN, operandX, operandN12, BitVec.getLsbD_extractLsb', BitVec.getLsbD_append]
  grind

theorem loX_operands (h : lo.extractLsb' 4 12 = 0#12) : loX (operandX lo) = lo := by
  rw [loX, ← h]
  exact loXN_operands

/-- A mask of the bits from `k` up says that the field above `k` is zero. -/
theorem and_highMask_eq_zero_iff {mask : Half} {k n : Nat} (hmask : ∀ i < 16, mask.getLsbD i = decide (k ≤ i))
    (hn : k + n = 16) : lo &&& mask = 0#16 ↔ lo.extractLsb' k n = 0#n := by
  constructor
  · intro h
    apply BitVec.eq_of_getLsbD_eq
    intro i hi
    have hbit := congrArg (fun v => BitVec.getLsbD v (k + i)) h
    simpa [hmask (k + i) (by omega), hi] using hbit
  · intro h
    apply BitVec.eq_of_getLsbD_eq
    intro i hi
    rcases Nat.lt_or_ge i k with hk | hk
    · simp [hmask i hi, Nat.not_le.2 hk]
    · have hbit := congrArg (fun v => BitVec.getLsbD v (i - k)) h
      simpa [hmask i hi, hk, show i - k < n by omega, show k + (i - k) = i by omega] using hbit

end

/-! ## Every standard instruction decodes from its own word -/

section
variable {op : BitVec 8} {g : Guard}

/-- An instruction that its opcode byte's row accepts decodes from its word. -/
theorem decodeStd_encode {i : Instr} {lo : Half} (he : encode i = stdWord op g lo) (ho : op.msb = false)
    (hw : g.wellFormed = true) (hd : decodeOp op g lo = .ok i) : decodeStd (encode i) = .ok i := by
  rw [he, decodeStd_stdWord ho hw, hd]

theorem decodeStd_encode_XYZ {C : Reg → Reg → Reg → Instr} {x y z : Reg}
    (he : encode (C x y z) = stdWord op g (loXYZ x y z)) (ho : op.msb = false) (hw : g.wellFormed = true)
    (hd : ∀ lo, decodeOp op g lo =
      needZero g (lo.extractLsb' 12 4 == 0#4) (C (operandX lo) (operandY lo) (operandZ lo))) :
    decodeStd (encode (C x y z)) = .ok (C x y z) :=
  decodeStd_encode he ho hw (by simp [hd, needZero])

theorem decodeStd_encode_XYN {C : Reg → Reg → BitVec 8 → Instr} {x y : Reg} {n : BitVec 8}
    (he : encode (C x y n) = stdWord op g (loXYN x y n)) (ho : op.msb = false) (hw : g.wellFormed = true)
    (hd : ∀ lo, decodeOp op g lo = .ok (C (operandX lo) (operandY lo) (operandN8 lo))) :
    decodeStd (encode (C x y n)) = .ok (C x y n) :=
  decodeStd_encode he ho hw (by simp [hd])

theorem decodeStd_encode_XY {C : Reg → Reg → Instr} {x y : Reg} (he : encode (C x y) = stdWord op g (loXY x y))
    (ho : op.msb = false) (hw : g.wellFormed = true)
    (hd : ∀ lo, decodeOp op g lo = needZero g (lo.extractLsb' 8 8 == 0#8) (C (operandX lo) (operandY lo))) :
    decodeStd (encode (C x y)) = .ok (C x y) :=
  decodeStd_encode he ho hw (by simp [hd, needZero])

theorem decodeStd_encode_XN {C : Reg → BitVec 12 → Instr} {x : Reg} {n : BitVec 12}
    (he : encode (C x n) = stdWord op g (loXN x n)) (ho : op.msb = false) (hw : g.wellFormed = true)
    (hd : ∀ lo, decodeOp op g lo = .ok (C (operandX lo) (operandN12 lo))) :
    decodeStd (encode (C x n)) = .ok (C x n) :=
  decodeStd_encode he ho hw (by simp [hd])

theorem decodeStd_encode_X {C : Reg → Instr} {x : Reg} (he : encode (C x) = stdWord op g (loX x))
    (ho : op.msb = false) (hw : g.wellFormed = true)
    (hd : ∀ lo, decodeOp op g lo = needZero g (lo.extractLsb' 4 12 == 0#12) (C (operandX lo))) :
    decodeStd (encode (C x)) = .ok (C x) :=
  decodeStd_encode he ho hw (by simp [hd, needZero])

end

/-- The opcode bytes 0x00-0x07 are the ones of the first eight rows (R86). -/
theorem fields_rsvd00 : ∀ k : BitVec 3, (0#5 ++ k).extractLsb' 4 4 = 0#4 ∧ (0#5 ++ k).getLsbD 3 = false ∧
    (0#5 ++ k).extractLsb' 0 3 = k ∧ (0#5 ++ k).msb = false := by
  decide

theorem decodeOp_rsvd00 (k : BitVec 3) (g : Guard) (lo : Half) : decodeOp (0#5 ++ k) g lo = .ok (.rsvd00 g k lo) := by
  obtain ⟨hformat, hreserved, hk, -⟩ := fields_rsvd00 k
  simp only [decodeOp, hformat, hreserved, hk]
  rfl

/-- Every well-formed standard instruction, by its format (R73 to R76). -/
theorem encodingRoundTrips_std (i : Instr) (hs : i.isCompact = false) (hw : i.wellFormed = true) :
    decodeStd (encode i) = .ok i := by
  cases i with
  | rsvd00 g k lo =>
    obtain ⟨-, -, -, ho⟩ := fields_rsvd00 k
    exact decodeStd_encode rfl ho hw (decodeOp_rsvd00 k g lo)
  | ret | fret | sleep | rfi | brk => exact decodeStd_encode rfl rfl hw rfl
  | rsvd0C | rsvd0D | rsvd0E | rsvd28 | rsvd29 | rsvd2A | rsvd2B | rsvd32 | rsvd33 | rsvd34 | rsvd35 | rsvd36
  | rsvd37 | rsvd3A | rsvd3B | rsvd3C | rsvd3D | rsvd3E | rsvd3F | rsvd46 | rsvd47 | rsvd56 | rsvd57 =>
    exact decodeStd_encode rfl rfl hw rfl
  | ba | br | jf | last | call | callr | fcall | fcallr | int | lil | lih => exact decodeStd_encode rfl rfl hw rfl
  | intX | callX | callrX | fcallX | fcallrX => exact decodeStd_encode_X rfl rfl hw fun _ => rfl
  | mov | swp | not | cmp | sxb | sxw | zxb | zxw | mvhh | mvhl | mvlh | mvll | smovTo | smovFrom =>
    exact decodeStd_encode_XY rfl rfl hw fun _ => rfl
  | addN12 | subN12 => exact decodeStd_encode_XN rfl rfl hw fun _ => rfl
  | add | sub | umul | smul | udiv | sdiv | and | or | xor | shl | shr | sar | rotl | rotr | stbx | sthx | stwx
  | stwxi | lbx | lhx | lwx | lwxi => exact decodeStd_encode_XYZ rfl rfl hw fun _ => rfl
  | addN | subN | umulN | smulN | udivN | sdivN | andN | orN | xorN | shlN | shrN | sarN | rotlN | rotrN | stb
  | stbi | stbp | stbd | sth | sthi | sthp | sthd | stw | stwi | stwp | stwd | lb | lbi | lbp | lbd | lh | lhi | lhp
  | lhd | lw | lwi | lwp | lwd => exact decodeStd_encode_XYN rfl rfl hw fun _ => rfl
  | _ => exact absurd hs Bool.noConfusion

/-! ## Every compact instruction decodes from its own halfword -/

section
variable {op : BitVec 8} {q w : BitVec 4}

/-- The bits of `i` are the halfword of `op`, `q` and `w`, which decodes to `i`. -/
theorem decodeHalf_encode {i : Instr} (he : encode i = halfWord op q w)
    (hd : decodeHalf (lower16 (halfWord op q w)) = .ok i) :
    decodeHalf (lower16 (encode i)) = .ok i ∧ higher16 (encode i) = 0#16 := by
  rw [he]
  exact ⟨hd, higher16_halfWord op q w⟩

/-- The forms whose whole operand byte is one field. -/
theorem decodeHalf_encode_byte {C : BitVec 8 → Instr} {n : BitVec 8}
    (he : encode (C n) = halfWord op (compactQ n) (compactW n))
    (hd : ∀ q w, decodeHalf (lower16 (halfWord op q w)) = .ok (C (q ++ w))) :
    decodeHalf (lower16 (encode (C n))) = .ok (C n) ∧ higher16 (encode (C n)) = 0#16 :=
  decodeHalf_encode he (by rw [hd, compactQ_append_compactW])

/-- The forms written with `w` before `q`. -/
theorem decodeHalf_encode_WQ {C : BitVec 4 → BitVec 4 → Instr} (he : encode (C w q) = halfWord op q w)
    (hd : decodeHalf (lower16 (halfWord op q w)) = .ok (C (compactW (q ++ w)) (compactQ (q ++ w)))) :
    decodeHalf (lower16 (encode (C w q))) = .ok (C w q) ∧ higher16 (encode (C w q)) = 0#16 :=
  decodeHalf_encode he (by rw [hd, compactW_append, compactQ_append])

/-- The forms written with `q` before `w`. -/
theorem decodeHalf_encode_QW {C : BitVec 4 → BitVec 4 → Instr} (he : encode (C q w) = halfWord op q w)
    (hd : decodeHalf (lower16 (halfWord op q w)) = .ok (C (compactQ (q ++ w)) (compactW (q ++ w)))) :
    decodeHalf (lower16 (encode (C q w))) = .ok (C q w) ∧ higher16 (encode (C q w)) = 0#16 :=
  decodeHalf_encode he (by rw [hd, compactW_append, compactQ_append])

end

/-- The first compact class, all of it reserved, holds the free bits `k`. -/
theorem decodeHalf_cRsvd80 (k q w : BitVec 4) :
    decodeHalf (lower16 (halfWord (0x8#4 ++ k) q w)) = .ok (.cRsvd80 k (q ++ w)) := by
  induction k using nibble_cases <;> exact decodeHalf_halfWord _ q w

/-- Every compact instruction, by the order of its fields (R90, R94). -/
theorem encodingRoundTrips_compact (i : Instr) (hc : i.isCompact = true) :
    decodeHalf (lower16 (encode i)) = .ok i ∧ higher16 (encode i) = 0#16 := by
  cases i with
  | cRsvd80 k lo => exact decodeHalf_encode_byte rfl (decodeHalf_cRsvd80 k)
  | cBa | cBr | cJf | cLast | cCall | cCallr | cFcall | cFcallr | cInt | cLil | cLih =>
    exact decodeHalf_encode_byte rfl (decodeHalf_halfWord _)
  | cRsvdA8 | cRsvdA9 | cRsvdAA | cRsvdAB | cRsvdB2 | cRsvdB3 | cRsvdB4 | cRsvdB5 | cRsvdB6 | cRsvdB7 | cRsvdBA
  | cRsvdBB | cRsvdBC | cRsvdBD | cRsvdBE | cRsvdBF | cRsvdC6 | cRsvdC7 | cRsvdD6 | cRsvdD7 =>
    exact decodeHalf_encode_byte rfl (decodeHalf_halfWord _)
  | cMov | cSwp | cNot | cCmp | cSxb | cSxw | cZxb | cZxw | cMvhh | cMvhl | cMvlh | cMvll | cAddN12 | cSubN12
  | cSmovTo | cSmovFrom | cAdd | cSub | cUmul | cSmul | cUdiv | cSdiv | cAnd | cOr | cXor | cShl | cShr | cSar
  | cRotl | cRotr | cAddN | cSubN | cUmulN | cSmulN | cUdivN | cSdivN | cAndN | cOrN | cXorN | cShlN | cShrN | cSarN
  | cRotlN | cRotrN | cStbx | cSthx | cStwx | cStwxi | cLbx | cLhx | cLwx | cLwxi =>
    exact decodeHalf_encode_WQ rfl (decodeHalf_halfWord ..)
  | cIntX | cCallX | cCallrX | cFcallX | cFcallrX | cStb | cStbi | cStbp | cStbd | cSth | cSthi | cSthp | cSthd
  | cStw | cStwi | cStwp | cStwd | cLb | cLbi | cLbp | cLbd | cLh | cLhi | cLhp | cLhd | cLw | cLwi | cLwp | cLwd =>
    exact decodeHalf_encode_QW rfl (decodeHalf_halfWord ..)
  | _ => exact absurd hc Bool.noConfusion

/-- Settles O1. -/
theorem encodingRoundTrips : Obligations.EncodingRoundTrips :=
  ⟨encodingRoundTrips_std, encodingRoundTrips_compact⟩

/-! ## What the decoder answers for a sound standard word -/

/-- The answer for opcode byte `op` and operand half `lo` under the sound guard `g`: a rejection when a must-be-zero
bit is 1 (R87 d), else an instruction under this guard that has these bits. -/
def Answers (op : BitVec 8) (g : Guard) (lo : Half) : Prop :=
  (lo &&& operandZeroMask op ≠ 0#16 → decodeOp op g lo = .error (.mustBeZero g)) ∧
  (lo &&& operandZeroMask op = 0#16 →
    ∃ i, decodeOp op g lo = .ok i ∧ encode i = stdWord op g lo ∧ i.guard = some g)

section
variable {op : BitVec 8} {g : Guard} {lo : Half}

/-- The row's own check is the one of its mask. -/
theorem answers_of_needZero {i : Instr} {zero : Bool} (hd : decodeOp op g lo = needZero g zero i)
    (hz : lo &&& operandZeroMask op = 0#16 ↔ zero = true) (he : zero = true → encode i = stdWord op g lo)
    (hg : i.guard = some g) : Answers op g lo := by
  refine ⟨fun h => ?_, fun h => ⟨i, ?_, he (hz.1 h), hg⟩⟩
  · rw [hd, Bool.eq_false_iff.2 (mt hz.2 h)]
    rfl
  · rw [hd, hz.1 h]
    rfl

/-- A row without must-be-zero bits accepts every operand half. -/
theorem answers_of_ok {i : Instr} (hd : decodeOp op g lo = .ok i) (hm : operandZeroMask op = 0#16)
    (he : encode i = stdWord op g lo) (hg : i.guard = some g) : Answers op g lo :=
  answers_of_needZero (zero := true) hd (by simp [hm]) (fun _ => he) hg

theorem answers_XYN {C : Reg → Reg → BitVec 8 → Instr}
    (hd : decodeOp op g lo = .ok (C (operandX lo) (operandY lo) (operandN8 lo))) (hm : operandZeroMask op = 0#16)
    (he : ∀ x y n, encode (C x y n) = stdWord op g (loXYN x y n)) (hg : ∀ x y n, (C x y n).guard = some g) :
    Answers op g lo :=
  answers_of_ok hd hm (by rw [he, loXYN_operands]) (hg ..)

theorem answers_XN {C : Reg → BitVec 12 → Instr} (hd : decodeOp op g lo = .ok (C (operandX lo) (operandN12 lo)))
    (hm : operandZeroMask op = 0#16) (he : ∀ x n, encode (C x n) = stdWord op g (loXN x n))
    (hg : ∀ x n, (C x n).guard = some g) : Answers op g lo :=
  answers_of_ok hd hm (by rw [he, loXN_operands]) (hg ..)

theorem answers_XYZ {C : Reg → Reg → Reg → Instr}
    (hd : decodeOp op g lo = needZero g (lo.extractLsb' 12 4 == 0#4) (C (operandX lo) (operandY lo) (operandZ lo)))
    (hm : operandZeroMask op = 0xF000#16) (he : ∀ x y z, encode (C x y z) = stdWord op g (loXYZ x y z))
    (hg : ∀ x y z, (C x y z).guard = some g) : Answers op g lo := by
  refine answers_of_needZero hd ?_ (fun h => ?_) (hg ..)
  · rw [hm, beq_iff_eq]
    exact and_highMask_eq_zero_iff (by decide) rfl
  · rw [he, loXYZ_operands (by simpa using h)]

theorem answers_XY {C : Reg → Reg → Instr}
    (hd : decodeOp op g lo = needZero g (lo.extractLsb' 8 8 == 0#8) (C (operandX lo) (operandY lo)))
    (hm : operandZeroMask op = 0xFF00#16) (he : ∀ x y, encode (C x y) = stdWord op g (loXY x y))
    (hg : ∀ x y, (C x y).guard = some g) : Answers op g lo := by
  refine answers_of_needZero hd ?_ (fun h => ?_) (hg ..)
  · rw [hm, beq_iff_eq]
    exact and_highMask_eq_zero_iff (by decide) rfl
  · rw [he, loXY_operands (by simpa using h)]

theorem answers_X {C : Reg → Instr}
    (hd : decodeOp op g lo = needZero g (lo.extractLsb' 4 12 == 0#12) (C (operandX lo)))
    (hm : operandZeroMask op = 0xFFF0#16) (he : ∀ x, encode (C x) = stdWord op g (loX x))
    (hg : ∀ x, (C x).guard = some g) : Answers op g lo := by
  refine answers_of_needZero hd ?_ (fun h => ?_) (hg ..)
  · rw [hm, beq_iff_eq]
    exact and_highMask_eq_zero_iff (by decide) rfl
  · rw [he, loX_operands (by simpa using h)]

/-- The rows without operands. -/
theorem answers_none {i : Instr} (hd : decodeOp op g lo = needZero g (lo == 0#16) i)
    (hm : operandZeroMask op = 0xFFFF#16) (he : encode i = stdWord op g 0#16) (hg : i.guard = some g) :
    Answers op g lo := by
  refine answers_of_needZero hd ?_ (fun h => ?_) hg
  · rw [hm, beq_iff_eq, show (0xFFFF#16 : Half) = BitVec.allOnes 16 from rfl, BitVec.and_allOnes]
  · rw [he, ← eq_of_beq h]

end

/-! ### The eight formats (R72) -/

section
variable (o : BitVec 4) (g : Guard) (lo : Half)

theorem answers_zero : Answers (0x0#4 ++ o) g lo := by
  induction o using nibble_cases with
  | is8 | is9 | isA | isB | isF => exact answers_none rfl rfl rfl rfl
  | _ => exact answers_of_ok rfl rfl rfl rfl

theorem answers_one : Answers (0x1#4 ++ o) g lo := by
  induction o using nibble_cases with
  | is9 | isC | isD | isE | isF => exact answers_X rfl rfl (fun _ => rfl) fun _ => rfl
  | _ => exact answers_of_ok rfl rfl rfl rfl

theorem answers_two : Answers (0x2#4 ++ o) g lo := by
  induction o using nibble_cases with
  | is8 | is9 | isA | isB => exact answers_of_ok rfl rfl rfl rfl
  | _ => exact answers_XY rfl rfl (fun _ _ => rfl) fun _ _ => rfl

theorem answers_twoImm : Answers (0x3#4 ++ o) g lo := by
  induction o using nibble_cases with
  | is0 | is1 => exact answers_XN rfl rfl (fun _ _ => rfl) fun _ _ => rfl
  | is8 | is9 => exact answers_XY rfl rfl (fun _ _ => rfl) fun _ _ => rfl
  | _ => exact answers_of_ok rfl rfl rfl rfl

theorem answers_alu : Answers (0x4#4 ++ o) g lo := by
  induction o using nibble_cases with
  | is6 | is7 => exact answers_of_ok rfl rfl rfl rfl
  | _ => exact answers_XYZ rfl rfl (fun _ _ _ => rfl) fun _ _ _ => rfl

theorem answers_aluImm : Answers (0x5#4 ++ o) g lo := by
  induction o using nibble_cases with
  | is6 | is7 => exact answers_of_ok rfl rfl rfl rfl
  | _ => exact answers_XYN rfl rfl (fun _ _ _ => rfl) fun _ _ _ => rfl

theorem answers_store : Answers (0x6#4 ++ o) g lo := by
  induction o using nibble_cases with
  | isC | isD | isE | isF => exact answers_XYZ rfl rfl (fun _ _ _ => rfl) fun _ _ _ => rfl
  | _ => exact answers_XYN rfl rfl (fun _ _ _ => rfl) fun _ _ _ => rfl

theorem answers_load : Answers (0x7#4 ++ o) g lo := by
  induction o using nibble_cases with
  | isC | isD | isE | isF => exact answers_XYZ rfl rfl (fun _ _ _ => rfl) fun _ _ _ => rfl
  | _ => exact answers_XYN rfl rfl (fun _ _ _ => rfl) fun _ _ _ => rfl

end

/-- Every opcode byte of a standard word belongs to one of the formats. -/
theorem answers_of_msb {op : BitVec 8} (ho : op.msb = false) (g : Guard) (lo : Half) : Answers op g lo := by
  obtain ⟨hi, o, rfl⟩ := byte_eq_append op
  rw [show (hi ++ o).msb = hi.msb from BitVec.msb_append] at ho
  induction hi using nibble_cases with
  | is0 => exact answers_zero o g lo
  | is1 => exact answers_one o g lo
  | is2 => exact answers_two o g lo
  | is3 => exact answers_twoImm o g lo
  | is4 => exact answers_alu o g lo
  | is5 => exact answers_aluImm o g lo
  | is6 => exact answers_store o g lo
  | is7 => exact answers_load o g lo
  | _ => exact absurd ho (by decide)

/-- Bit 31 of a word is the top bit of its opcode byte. -/
theorem msb_fieldOp (w : Word) : (fieldOp w).msb = w.msb := by
  simp [fieldOp, BitVec.msb_eq_getLsbD_last]

/-- The decoder's answer for the fields of a word with bit 31 clear (R70). -/
theorem answers_of_standard {w : Word} (hm : w.msb = false) (g : Guard) : Answers (fieldOp w) g (fieldLo w) :=
  answers_of_msb ((msb_fieldOp w).trans hm) g (fieldLo w)

/-- Settles O4. -/
theorem mustBeZeroBitsDecideDecoding : Obligations.MustBeZeroBitsDecideDecoding := by
  intro w g hm hg
  rw [decodeStd_of_guard hm hg]
  obtain ⟨hreject, haccept⟩ := answers_of_standard hm g
  refine ⟨hreject, fun hz => ?_⟩
  obtain ⟨i, hd, -, hguard⟩ := haccept hz
  exact ⟨i, hd, hguard⟩

/-! ## Every accepted word and halfword encodes back to itself -/

/-- An instruction with a guard is a standard one, well formed when its guard is. -/
theorem wellFormed_of_guard {i : Instr} {g : Guard} (h : i.guard = some g) (hw : g.wellFormed = true) :
    i.wellFormed = true ∧ i.isCompact = false := by
  simp [Instr.wellFormed, Instr.isCompact, h, hw]

theorem decodedInstructionReencodes_std {w : Word} {i : Instr} (h : decodeStd w = .ok i) :
    encode i = w ∧ i.wellFormed = true ∧ i.isCompact = false := by
  obtain ⟨g, hm, hg, hd⟩ := decodeStd_ok h
  obtain ⟨-, -, -, hw⟩ := decodeGuard_ok hg
  obtain ⟨hreject, haccept⟩ := answers_of_standard hm g
  by_cases hz : fieldLo w &&& operandZeroMask (fieldOp w) = 0#16
  · obtain ⟨j, hj, he, hguard⟩ := haccept hz
    obtain rfl : j = i := Except.ok.inj (hj.symm.trans hd)
    exact ⟨he.trans (stdWord_of_fields hg), wellFormed_of_guard hguard hw⟩
  · cases hd.symm.trans (hreject hz)

/-- `i` is the compact instruction of operation byte `op` and operand byte `lo`. -/
def HasHalf (i : Instr) (op lo : BitVec 8) : Prop :=
  encode i = halfWord op (compactQ lo) (compactW lo) ∧ i.isCompact = true

section
variable (o : BitVec 4) (lo : BitVec 8)

theorem hasHalf_decodeC1 : HasHalf (decodeC1 o lo) (0x9#4 ++ o) lo := by
  induction o using nibble_cases <;> exact ⟨rfl, rfl⟩

theorem hasHalf_decodeC2R : HasHalf (decodeC2R o lo) (0xA#4 ++ o) lo := by
  induction o using nibble_cases <;> exact ⟨rfl, rfl⟩

theorem hasHalf_decodeC2I : HasHalf (decodeC2I o lo) (0xB#4 ++ o) lo := by
  induction o using nibble_cases <;> exact ⟨rfl, rfl⟩

theorem hasHalf_decodeCAluR : HasHalf (decodeCAluR o lo) (0xC#4 ++ o) lo := by
  induction o using nibble_cases <;> exact ⟨rfl, rfl⟩

theorem hasHalf_decodeCAluI : HasHalf (decodeCAluI o lo) (0xD#4 ++ o) lo := by
  induction o using nibble_cases <;> exact ⟨rfl, rfl⟩

theorem hasHalf_decodeCSt : HasHalf (decodeCSt o lo) (0xE#4 ++ o) lo := by
  induction o using nibble_cases <;> exact ⟨rfl, rfl⟩

theorem hasHalf_decodeCLd : HasHalf (decodeCLd o lo) (0xF#4 ++ o) lo := by
  induction o using nibble_cases <;> exact ⟨rfl, rfl⟩

end

/-- A halfword is its class, its operation and its operand byte. -/
theorem half_eq_append (h : Half) :
    lower16 (halfWord (h.extractLsb' 12 4 ++ h.extractLsb' 8 4) (compactQ (h.extractLsb' 0 8))
      (compactW (h.extractLsb' 0 8))) = h := by
  rw [lower16_halfWord, compactQ, compactW]
  apply BitVec.eq_of_getLsbD_eq
  intro i hi
  simp (disch := omega) only [BitVec.getLsbD_append, BitVec.getLsbD_extractLsb']
  grind

/-- What the decoder accepts, by its class (R92). -/
theorem decodeHalf_ok {h : Half} {i : Instr} (hd : decodeHalf h = .ok i) :
    HasHalf i (h.extractLsb' 12 4 ++ h.extractLsb' 8 4) (h.extractLsb' 0 8) := by
  unfold decodeHalf at hd
  generalize h.extractLsb' 12 4 = cls at hd ⊢
  induction cls using nibble_cases with
  | is8 => cases hd; exact ⟨rfl, rfl⟩
  | is9 => cases hd; exact hasHalf_decodeC1 ..
  | isA => cases hd; exact hasHalf_decodeC2R ..
  | isB => cases hd; exact hasHalf_decodeC2I ..
  | isC => cases hd; exact hasHalf_decodeCAluR ..
  | isD => cases hd; exact hasHalf_decodeCAluI ..
  | isE => cases hd; exact hasHalf_decodeCSt ..
  | isF => cases hd; exact hasHalf_decodeCLd ..
  | _ => cases hd

theorem decodedInstructionReencodes_half {h : Half} {i : Instr} (hd : decodeHalf h = .ok i) :
    lower16 (encode i) = h ∧ i.isCompact = true := by
  obtain ⟨he, hc⟩ := decodeHalf_ok hd
  exact ⟨by rw [he, half_eq_append], hc⟩

/-- Settles O2. -/
theorem decodedInstructionReencodes : Obligations.DecodedInstructionReencodes :=
  ⟨fun _ _ => decodedInstructionReencodes_std, fun _ _ => decodedInstructionReencodes_half⟩

/-- Settles O3: closed words, so the decoder's own evaluation. -/
theorem writtenWordsDecode : Obligations.WrittenWordsDecode :=
  ⟨rfl, rfl, rfl, rfl, rfl, rfl, rfl, rfl, rfl, rfl, rfl⟩

end Sys2Proof
end

section
/-! PROOFS. What a standard instruction does before its statements: the condition test, the skip, the traps of reserved
encodings; the extension of immediates; the branches (30_encoding.md R77 to R87, R93; 44_one_operand.md R200, R201,
R203). -/

namespace Sys2Proof.Machine

open Rows

/-! ## The condition field (30_encoding.md R83, R84) -/

/-- Every instruction with a guard runs its statements under this guard. The compact constructors have none, so the
split on `h` leaves the arms of the standard ones, each a `runStd`. -/
theorem exec_eq_runStd {i : Instr} {g : Guard} (h : i.guard = some g) (s : State) :
    ∃ body : State → Effect, exec i s = runStd g body s := by
  cases i <;> cases h <;> exact ⟨_, rfl⟩

/-- The unconditional code with `rr` not zero is the ill-formed guard (R87 c). -/
theorem wellFormed_eq_false_of_al {g : Guard} (hc : g.cond = .al) (hr : g.rr ≠ 0#2) : g.wellFormed = false := by
  simp [Guard.wellFormed, hc, hr]

/-- Settles O22. -/
theorem falseConditionSkips : Obligations.FalseConditionSkips := by
  intro s i g hg
  obtain ⟨body, hbody⟩ := exec_eq_runStd hg s
  rw [hbody]
  exact ⟨fun hw hc => runStd_of_false hw hc body, fun hc hr => runStd_of_illFormed s (wellFormed_eq_false_of_al hc hr) body⟩

theorem signedLess_nOnly (h : Config.signedCond = .nOnly) (n v : Bool) : signedLess n v = n := by
  rw [signedLess, h, show (SignedCond.nOnly == SignedCond.nXorV) = false from rfl, Bool.and_false, Bool.xor_false]

theorem signedLess_nXorV (h : Config.signedCond = .nXorV) (n v : Bool) : signedLess n v = (n != v) := by
  simp [signedLess, h]

/-- Settles O21: the codes without "signed less than" are tested as R84 writes them, the others by the reading. -/
theorem conditionCodesTest : Obligations.ConditionCodesTest := by
  intro s rr z c v n holds
  refine ⟨⟨rfl, rfl, rfl⟩, ⟨rfl, rfl⟩, ⟨rfl, rfl⟩, ⟨rfl, rfl⟩, ⟨rfl, rfl⟩, fun h => ?_, fun h => ?_⟩
  · have hmi : holds .mi = n := signedLess_nOnly h n v
    have hgt : holds .gt = (!n && !z) := congrArg (fun b => !b && !z) hmi
    have hle : holds .le = !(!n && !z) := congrArg Bool.not hgt
    exact ⟨hmi, congrArg Bool.not hmi, hgt, by simpa using hle⟩
  · have hmi : holds .mi = (n != v) := signedLess_nXorV h n v
    have hpl : holds .pl = (n == v) := (congrArg Bool.not hmi).trans (Bool.not_not _)
    have hgt : holds .gt = (n == v && !z) := congrArg (· && !z) hpl
    have hle : holds .le = !(n == v && !z) := congrArg Bool.not hgt
    exact ⟨hmi, hpl, hgt, by simpa [bne] using hle⟩

/-! ## Immediates (30_encoding.md R80, R93) -/

/-- Shifting a sign-extended half left by two loses no bit of it. -/
theorem toInt_signExtend_shiftLeft_two (n : Half) : (n.signExtend 32 <<< 2).toInt = n.toInt * 4 := by
  have hlow := BitVec.le_toInt n
  have hhigh := BitVec.toInt_lt (x := n)
  rw [BitVec.shiftLeft_eq_mul_twoPow, BitVec.toInt_mul, BitVec.toInt_signExtend_of_le (by decide),
    show (BitVec.twoPow 32 2).toInt = 4 from rfl]
  exact Int.bmod_eq_of_le (by omega) (by omega)

/-- Settles O23: at the spec's defaults the immediates of `ba`, `br` and the calls are signed, the others not. -/
theorem immediateExtensions : Obligations.ImmediateExtensions := by
  have toNat_zeroExtend : ∀ {w v : Nat} (n : BitVec w), w ≤ v → (n.zeroExtend v).toNat = n.toNat :=
    fun _ => BitVec.toNat_setWidth_of_le
  exact ⟨fun n => toNat_zeroExtend n (by decide), fun n => toNat_zeroExtend n (by decide),
    fun n => toNat_zeroExtend n (by decide), toInt_signExtend_shiftLeft_two, toInt_signExtend_shiftLeft_two,
    fun n => toNat_zeroExtend n (by decide), fun n => toNat_zeroExtend n (by decide),
    fun n => toNat_zeroExtend n (by decide)⟩

/-! ## Reserved opcodes (30_encoding.md R86) -/

theorem runsTo_reserved {i : Instr} {g : Guard} (h : ReservedRow i g) (s : State) :
    RunsTo s i g (.error .invalidOpcode) := by
  cases h with
  | rsvd00 | rsvd0C | rsvd0D | rsvd0E | rsvd28 | rsvd29 | rsvd2A | rsvd2B | rsvd32 | rsvd33 | rsvd34 | rsvd35 | rsvd36
  | rsvd37 | rsvd3A | rsvd3B | rsvd3C | rsvd3D | rsvd3E | rsvd3F | rsvd46 | rsvd47 | rsvd56 | rsvd57 =>
    exact runsTo_std rfl rfl
  | _ => exact runsTo_compact (body := reservedOpcode) rfl rfl

/-- Settles O55. -/
theorem reservedOpcodesTrap : Obligations.ReservedOpcodesTrap := by
  intro s i g h hw hc
  rw [(runsTo_reserved h s).exec_of_holds hw hc, conclude_error]

/-! ## Branches (44_one_operand.md R200, R201, R203) -/

theorem runsTo_branch {s : State} {i : Instr} {g : Guard} {target : Word} (h : BranchRow s i g target) :
    RunsTo s i g (s.writePc target) := by
  cases h with
  | ba | br | last => exact runsTo_std rfl rfl
  | cBa n => exact runsTo_compact (body := fun s => s.writePc (immBranch (compactN16 n))) rfl rfl
  | cBr n => exact runsTo_compact (body := fun s => s.writePc (s.pc + immBranch (compactN16 n))) rfl rfl
  | cLast => exact runsTo_compact (body := fun s => s.writePc (s.pc - 8#32)) rfl rfl

theorem aligned4_immBranch (n : Half) : aligned4 (immBranch n) = true := by
  simp [aligned4_iff, immBranch]

theorem aligned4_add {a b : Word} (ha : aligned4 a = true) (hb : aligned4 b = true) : aligned4 (a + b) = true := by
  rw [aligned4_iff_mod] at *
  rw [BitVec.toNat_add]
  omega

theorem aligned4_sub_eight {a : Word} (ha : aligned4 a = true) : aligned4 (a - 8#32) = true := by
  rw [BitVec.sub_eq_add_neg]
  exact aligned4_add ha (by decide)

/-- From an aligned `pc` every branch goes to an aligned target. -/
theorem aligned4_target {s : State} {i : Instr} {g : Guard} {target : Word} (h : BranchRow s i g target)
    (hpc : aligned4 s.pc = true) : aligned4 target = true := by
  cases h with
  | ba | cBa => exact aligned4_immBranch _
  | br | cBr => exact aligned4_add hpc (aligned4_immBranch _)
  | last | cLast => exact aligned4_sub_eight hpc

/-- Settles O46. -/
theorem branchesComplete : Obligations.BranchesComplete := by
  intro s i g target h hw hc hpc
  have htarget := aligned4_target h hpc
  refine ⟨?_, htarget⟩
  rw [(runsTo_branch h).exec_of_holds hw hc, writePc_ok htarget, conclude_ok]
  exact id

end Sys2Proof.Machine
end

section
/-! PROOFS. The step on the words that are not one accepted standard instruction: reserved fields, must-be-zero bits,
compact pairs; and the placing of a word for the next fetch (30_encoding.md R70, R77, R87, R91; 46_compact.md R231). -/

namespace Sys2Proof.Machine

open Rows

/-! ## Words that no row matches (30_encoding.md R77, R87) -/

theorem runWord_of_reject {w : Word} {e : Reject} (hm : w.msb = false) (h : decodeStd w = .error e) (s : State) :
    runWord w s = runReject e s := by
  simp [runWord, hm, h]

/-- A condition byte with a reserved value has no guard. -/
theorem decodeGuard_ne_ok_of_reserved {w : Word}
    (h : fieldV w ≠ 0#2 ∨ fieldCccc w = 7#4 ∨ (fieldCccc w = 0#4 ∧ fieldRr w ≠ 0#2)) (g : Guard) :
    decodeGuard w ≠ .ok g := by
  intro hg
  obtain ⟨hv, hc, hr, hw⟩ := decodeGuard_ok hg
  have code_ne : ∀ c : Cond, condCode c ≠ 7#4 := by intro c; cases c <;> decide
  have code_zero : ∀ c : Cond, condCode c = 0#4 → c = .al := by intro c; cases c <;> decide
  rcases h with hv' | hc' | ⟨hc', hr'⟩
  · exact hv' hv
  · exact code_ne _ (hc.trans hc')
  · have hbad := wellFormed_eq_false_of_al (code_zero _ (hc.trans hc')) (hr ▸ hr')
    exact absurd (hw.symm.trans hbad) (by decide)

/-- The checks of the condition byte reject before the condition is looked at: trap 2 (R77 step 1). -/
theorem runReject_of_decodeGuard {w : Word} {e : Reject} (h : decodeGuard w = .error e) (s : State) :
    runReject e s = .next (s.trapEntry .invalidOpcode) := by
  unfold decodeGuard at h
  split at h
  · cases h; rfl
  · split at h
    · cases h; rfl
    · split at h
      · cases h
      · cases h; rfl

/-- A standard word without a guard traps. -/
theorem runWord_of_no_guard {w : Word} (hm : w.msb = false) (h : ∀ g, decodeGuard w ≠ .ok g) (s : State) :
    runWord w s = .next (s.trapEntry .invalidOpcode) := by
  cases hg : decodeGuard w with
  | ok g => exact absurd hg (h g)
  | error e =>
    have hd : decodeStd w = .error e := by
      simp [decodeStd, hm, hg]
    rw [runWord_of_reject hm hd, runReject_of_decodeGuard hg]

/-- Settles O8. -/
theorem reservedFieldsTrap : Obligations.ReservedFieldsTrap := by
  intro s w hf hm after
  have hstep : step s = runWord w after := step_of_fetches hf
  rw [hstep]
  refine ⟨fun h => runWord_of_no_guard hm (decodeGuard_ne_ok_of_reserved h) after, fun g hg hz => ?_⟩
  obtain ⟨-, -, -, hw⟩ := decodeGuard_ok hg
  have hd : decodeStd w = .error (.mustBeZero g) := (mustBeZeroBitsDecideDecoding w g hm hg).1 hz
  have hrun : runWord w after = runStd g reservedOpcode after := runWord_of_reject hm hd after
  rw [hrun]
  exact ⟨fun hc => runStd_of_holds (s := after) hw hc reservedOpcode,
    fun hc => runStd_of_false (s := after) hw hc reservedOpcode⟩

/-! ## Compact pairs (30_encoding.md R91, 46_compact.md R231) -/

/-- The marker of a halfword is the top bit of its class. -/
theorem msb_class (h : Half) : (h.extractLsb' 12 4).msb = h.msb := by
  simp [BitVec.msb_eq_getLsbD_last]

theorem decodeHalf_of_marker {h : Half} (hm : h.msb = true) : ∃ i, decodeHalf h = .ok i := by
  rw [← msb_class] at hm
  unfold decodeHalf
  generalize h.extractLsb' 12 4 = cls at hm ⊢
  induction cls using nibble_cases with
  | is8 | is9 | isA | isB | isC | isD | isE | isF => exact ⟨_, rfl⟩
  | _ => exact absurd hm (by decide)

theorem decodeHalf_of_no_marker {h : Half} (hm : h.msb = false) : decodeHalf h = .error .markerClear := by
  rw [← msb_class] at hm
  unfold decodeHalf
  generalize h.extractLsb' 12 4 = cls at hm ⊢
  induction cls using nibble_cases with
  | is8 | is9 | isA | isB | isC | isD | isE | isF => exact absurd hm (by decide)
  | _ => rfl

theorem runHalf_of_ok {h : Half} {i : Instr} (hd : decodeHalf h = .ok i) (s : State) : runHalf h s = exec i s := by
  simp [runHalf, hd]

theorem runHalf_of_error {h : Half} {e : Reject} (hd : decodeHalf h = .error e) (s : State) :
    runHalf h s = .next (s.trapEntry .invalidOpcode) := by
  simp [runHalf, hd]

theorem runLatched_of_none {s : State} (h : s.latch = none) : runLatched s = .next s := by
  simp [runLatched, h]

theorem runLatched_of_some {s : State} {h : Half} (hl : s.latch = some h) :
    runLatched s = runHalf h { s with latch := none, busTime := s.busTime + 1 } := by
  simp [runLatched, hl]

/-- What instruction 1 leaves, the latch decides about instruction 2. -/
theorem runPair_of_next {first second : Half} {s t : State}
    (h : runHalf first { s with latch := some second } = .next t) : runPair first second s = runLatched t := by
  simp [runPair, h]

theorem msb_higher16 (w : Word) : (higher16 w).msb = w.msb := by
  simp [higher16, BitVec.msb_eq_getLsbD_last]

/-- Settles O6. -/
theorem stepRunsCompactPair : Obligations.StepRunsCompactPair := by
  intro s w hf hm start
  have hstep : ∀ {t}, runHalf (lower16 w) start = .next t → step s = runLatched t := fun h => by
    rw [step_of_fetches hf, runWord, if_pos hm]
    exact runPair_of_next h
  refine ⟨fun hclear => ?_, fun hmarker => ?_⟩
  · rw [hstep (runHalf_of_error (decodeHalf_of_no_marker hclear) start), runLatched_of_none (trapEntry_latch ..)]
  · obtain ⟨i, hi⟩ := decodeHalf_of_marker hmarker
    obtain ⟨j, hj⟩ := decodeHalf_of_marker ((msb_higher16 w).trans hm)
    refine ⟨i, j, hi, hj, fun t ht hl => ?_, fun t ht hl => ?_⟩
    · rw [hstep ((runHalf_of_ok hi start).trans ht), runLatched_of_some hl, runHalf_of_ok hj]
    · rw [hstep ((runHalf_of_ok hi start).trans ht), runLatched_of_none hl]

/-! ## The placing of a word (log 20) -/

section
variable (s : State) (nbits w : Nat)

/-- No device is left at the placed word. -/
theorem isDevice_placeWord : (placeWord s nbits w).isDevice (clear2 s.pc) .word = false := by
  simp only [State.isDevice, placeWord, List.any_eq_false, List.mem_filter]
  rintro d ⟨-, hclear⟩ htouch
  obtain ⟨hlo, hhi⟩ := Bool.and_eq_true_iff.1 htouch
  have hlo : d.lo < (clear2 s.pc).toNat + 4 := of_decide_eq_true hlo
  have hhi : (clear2 s.pc).toNat ≤ d.hi := of_decide_eq_true hhi
  simp only [Bool.or_eq_true, decide_eq_true_eq] at hclear
  omega

/-- No rule is left that would make a fetch fail. -/
theorem accessFails_placeWord (a : Word) (width : Width) : accessFails (placeWord s nbits w) .fetch a width = false := by
  simp only [accessFails, placeWord, List.any_eq_false, List.mem_filter]
  rintro f ⟨-, hf⟩
  have hkind : (f.kind == .fetch) = false := by simpa using hf
  simp [hkind]

theorem flagI_placeWord : (placeWord s nbits w).flagI = s.flagI := by
  show (setBit s.sr 12 false).getLsbD 8 = s.sr.getLsbD 8
  rw [getLsbD_setBit, if_neg (by decide)]

theorem flagF_placeWord : (placeWord s nbits w).flagF = false := by
  show (setBit s.sr 12 false).getLsbD 12 = false
  rw [getLsbD_setBit, if_pos (by decide)]

theorem ready_placeWord : (placeWord s nbits w).Ready := by
  refine ⟨rfl, rfl, rfl, ?_, flagF_placeWord s nbits w⟩
  rw [flagI_placeWord]
  show _ ∨ (if s.flagI then s.irqPending else []) = []
  cases s.flagI <;> simp

variable {s}

theorem fetches_placeWord (h : s.mem.wf = true) : (placeWord s nbits w).Fetches (wordOfTable nbits w) := by
  refine ⟨ready_placeWord s nbits w, aligned4_clear2 s.pc, accessFails_placeWord .., ?_⟩
  have hmemory := isDevice_placeWord s nbits w
  exact (busValue_memory hmemory .fetch).trans (loadBytes_storeBytes_word h _ _)

end

/-- Settles O11. -/
theorem placedWordIsFetched : Obligations.PlacedWordIsFetched := by
  intro s nbits w hwf t
  obtain ⟨-, hother⟩ := storedAt_storeBytes hwf (clear2 s.pc) .word (wordOfTable nbits w)
  refine ⟨fetches_placeWord nbits w hwf, rfl, ⟨rfl, rfl, rfl, rfl, rfl, rfl⟩, fun i hi => ?_, hother⟩
  show (setBit s.sr 12 false).getLsbD i = s.sr.getLsbD i
  rw [getLsbD_setBit, if_neg fun h => hi h.1]

end Sys2Proof.Machine
end

section
/-! PROOFS. What the arithmetic and logic operations compute, against exact integers and single bits: values and flags
(40_alu.md R101 to R106). -/

namespace Sys2Proof.Machine

/-! ## The low bits of a value -/

theorem toNat_extractLsb'_zero {w : Nat} (v : BitVec w) (k : Nat) : (v.extractLsb' 0 k).toNat = v.toNat % 2 ^ k := by
  rw [BitVec.extractLsb'_toNat, Nat.shiftRight_zero]

/-- The low bits read as signed: the signed value brought into their range. -/
theorem toInt_extractLsb'_zero {w k : Nat} (hk : k ≤ w) (v : BitVec w) :
    (v.extractLsb' 0 k).toInt = v.toInt.bmod (2 ^ k) := by
  rw [BitVec.toInt_eq_toNat_bmod, toNat_extractLsb'_zero, BitVec.toInt_eq_toNat_bmod v,
    Int.bmod_bmod_of_dvd (Nat.pow_dvd_pow 2 hk), Int.natCast_emod, Int.emod_bmod]

/-! ## Z and N of a result -/

theorem flagsLogic_eq (r : Word) :
    flagsLogic r = { z := some (decide (r = 0#32)), n := some (decide (r.toInt < 0)) } := by
  rw [flagsLogic, beq_eq_decide, BitVec.msb_eq_toInt]

theorem flagsZCN_mk (z c n : Bool) : flagsZCN ⟨z, c, n⟩ = { z := some z, c := some c, n := some n } := rfl

/-! ## Sum and difference (R101, R102) -/

/-- An exact value in the signed range of 32 bits is left as it is. -/
theorem bmod_two_pow_32_eq_self_iff (n : Int) : n.bmod (2 ^ 32) = n ↔ -2 ^ 31 ≤ n ∧ n < 2 ^ 31 := by
  constructor
  · intro h
    have := Int.le_bmod (x := n) (m := 2 ^ 32) (by decide)
    have := Int.bmod_lt (x := n) (m := 2 ^ 32) (by decide)
    omega
  · rintro ⟨hlow, hhigh⟩
    exact Int.bmod_eq_of_le (by omega) (by omega)

/-- The signed overflow of 32 bits: wrapping changes the exact value. -/
theorem signedOverflow_eq (n : Int) :
    (decide (2 ^ 31 ≤ n) || decide (n < -2 ^ 31)) = decide (n.bmod (2 ^ 32) ≠ n) := by
  rw [← Bool.decide_or, decide_eq_decide, ne_eq, bmod_two_pow_32_eq_self_iff]
  omega

/-- V of a sum: the signs agree and the result's differs, exactly when the exact sum is not the result. -/
theorem addOverflow_eq (a b : Word) :
    (a.msb == b.msb && (a + b).msb != a.msb) = decide ((a + b).toInt ≠ a.toInt + b.toInt) := by
  calc (a.msb == b.msb && (a + b).msb != a.msb)
      = a.saddOverflow b := (BitVec.saddOverflow_eq a b).symm
    _ = decide ((a + b).toInt ≠ a.toInt + b.toInt) := by
      rw [BitVec.toInt_add]
      exact signedOverflow_eq _

/-- V of a difference: the signs differ and the result's is not the first one's. -/
theorem subOverflow_eq (a b : Word) :
    (a.msb != b.msb && (a - b).msb != a.msb) = decide ((a - b).toInt ≠ a.toInt - b.toInt) := by
  calc (a.msb != b.msb && (a - b).msb != a.msb)
      = a.ssubOverflow b := by
        rw [BitVec.ssubOverflow_eq]
        cases a.msb <;> cases b.msb <;> simp
    _ = decide ((a - b).toInt ≠ a.toInt - b.toInt) := by
      rw [BitVec.toInt_sub]
      exact signedOverflow_eq _

/-- Settles O24. -/
theorem additionResultAndFlags : Obligations.AdditionResultAndFlags := fun a b =>
  ⟨BitVec.toNat_add a b, congrArg some (beq_eq_decide _ _), rfl, congrArg some (addOverflow_eq a b),
    congrArg some BitVec.msb_eq_toInt⟩

theorem toNat_sub_eq_emod (a b : Word) : ((a - b).toNat : Int) = ((a.toNat : Int) - b.toNat) % 2 ^ 32 := by
  rw [BitVec.toNat_sub]
  omega

/-- Settles O25: Z of a difference compares the operands. -/
theorem subtractionResultAndFlags : Obligations.SubtractionResultAndFlags := by
  refine fun a b => ⟨toNat_sub_eq_emod a b, congrArg some ?_, rfl, congrArg some (subOverflow_eq a b),
    congrArg some BitVec.msb_eq_toInt⟩
  show (a - b == 0#32) = decide (a = b)
  rw [beq_eq_decide, decide_eq_decide]
  exact sub_eq_zero

/-! ## Product (R103) -/

theorem toNat_zeroExtend_mul (a b : Word) :
    (a.zeroExtend 64 * b.zeroExtend 64).toNat = a.toNat * b.toNat := by
  have hbound : a.toNat * b.toNat < 2 ^ 32 * 2 ^ 32 := Nat.mul_lt_mul'' a.isLt b.isLt
  rw [BitVec.toNat_mul, BitVec.toNat_setWidth_of_le (by decide), BitVec.toNat_setWidth_of_le (by decide)]
  exact Nat.mod_eq_of_lt hbound

theorem toInt_signExtend_mul (a b : Word) :
    (a.signExtend 64 * b.signExtend 64).toInt = a.toInt * b.toInt := by
  have hlow : -2 ^ 62 ≤ a.toInt * b.toInt := BitVec.le_toInt_mul_toInt
  have hhigh : a.toInt * b.toInt ≤ 2 ^ 62 := BitVec.toInt_mul_toInt_le
  rw [BitVec.toInt_mul, BitVec.toInt_signExtend_of_le (by decide), BitVec.toInt_signExtend_of_le (by decide)]
  exact Int.bmod_eq_of_le (by omega) (by omega)

theorem toNat_high_word (p : BitVec 64) : (p.extractLsb' 32 32).toNat = p.toNat / 2 ^ 32 := by
  rw [BitVec.extractLsb'_toNat, Nat.shiftRight_eq_div_pow]
  omega

theorem toNat_words (p : BitVec 64) :
    (p.extractLsb' 0 32).toNat + 2 ^ 32 * (p.extractLsb' 32 32).toNat = p.toNat := by
  rw [toNat_extractLsb'_zero, toNat_high_word]
  omega

/-- The sign of a 64-bit value is the sign of its high word. -/
theorem toInt_words (p : BitVec 64) :
    ((p.extractLsb' 0 32).toNat : Int) + 2 ^ 32 * (p.extractLsb' 32 32).toInt = p.toInt := by
  rw [BitVec.toInt_eq_toNat_cond, BitVec.toInt_eq_toNat_cond, toNat_extractLsb'_zero, toNat_high_word]
  split_ifs <;> omega

/-- The high word of an unsigned product carries information. -/
theorem high_word_ne_zero_iff (p : BitVec 64) : p.extractLsb' 32 32 ≠ 0#32 ↔ 2 ^ 32 ≤ p.toNat := by
  rw [ne_eq, ← BitVec.toNat_inj, toNat_high_word, BitVec.toNat_ofNat]
  omega

/-- The high word of a signed product carries information: the product is not its low word with the sign repeated. -/
theorem ne_signExtend_low_word_iff (p : BitVec 64) :
    p ≠ (p.extractLsb' 0 32).signExtend 64 ↔ p.toInt < -2 ^ 31 ∨ 2 ^ 31 ≤ p.toInt := by
  rw [ne_eq, ← BitVec.toInt_inj, BitVec.toInt_signExtend_of_le (by decide),
    toInt_extractLsb'_zero (by decide), eq_comm, bmod_two_pow_32_eq_self_iff]
  omega

theorem mulFlags_unsigned (p : BitVec 64) :
    mulFlags false p = ⟨decide (p.toNat = 0), decide (2 ^ 32 ≤ p.toNat), decide (2 ^ 63 ≤ p.toNat)⟩ := by
  have hz : (p == 0#64) = decide (p.toNat = 0) := by
    rw [beq_eq_decide, decide_eq_decide, ← BitVec.toNat_inj]; rfl
  have hc : (p.extractLsb' 32 32 != 0#32) = decide (2 ^ 32 ≤ p.toNat) := by
    rw [Bool.eq_iff_iff, bne_iff_ne, decide_eq_true_iff, high_word_ne_zero_iff]
  simp only [mulFlags, hz, hc, BitVec.msb_eq_decide, Bool.false_eq_true, if_false]

theorem mulFlags_signed (p : BitVec 64) :
    mulFlags true p = ⟨decide (p.toInt = 0), decide (p.toInt < -2 ^ 31 ∨ 2 ^ 31 ≤ p.toInt), decide (p.toInt < 0)⟩ := by
  have hz : (p == 0#64) = decide (p.toInt = 0) := by
    rw [beq_eq_decide, decide_eq_decide, ← BitVec.toInt_inj]; rfl
  have hc : (p != (p.extractLsb' 0 32).signExtend 64) = decide (p.toInt < -2 ^ 31 ∨ 2 ^ 31 ≤ p.toInt) := by
    rw [Bool.eq_iff_iff, bne_iff_ne, decide_eq_true_iff, ne_signExtend_low_word_iff]
  simp only [mulFlags, hz, hc, BitVec.msb_eq_toInt, if_true]

/-- Settles O26: the 64-bit product is exact, and its words and flags are told by its value. -/
theorem productResultAndFlags : Obligations.ProductResultAndFlags := by
  intro a b
  refine ⟨⟨?_, ?_⟩, ?_, ?_⟩
  · exact (toNat_words _).trans (toNat_zeroExtend_mul a b)
  · simp only [umulResult, mulFlags_unsigned, toNat_zeroExtend_mul, flagsZCN_mk]
  · exact (toInt_words _).trans (toInt_signExtend_mul a b)
  · simp only [smulResult, mulFlags_signed, toInt_signExtend_mul, flagsZCN_mk]

/-! ## Quotient and remainder (R104) -/

theorem udivResult_eq (a b : Word) :
    udivResult a b = ⟨a / b, a % b, { z := some (decide (a / b = 0#32)), c := some false, n := some (a / b).msb }⟩ := by
  have hq : BitVec.ofNat 32 (a.toNat / b.toNat) = a / b := by
    rw [← BitVec.toNat_udiv, BitVec.ofNat_toNat, BitVec.setWidth_eq]
  have hr : BitVec.ofNat 32 (a.toNat % b.toNat) = a % b := by
    rw [← BitVec.toNat_umod, BitVec.ofNat_toNat, BitVec.setWidth_eq]
  simp only [udivResult, divSem, hq, hr, flagsZCN_mk, beq_eq_decide, Bool.false_eq_true, if_false]

/-- Rounding toward zero is the library's signed division, which wraps in the one overflow. -/
theorem sdivResult_eq (a b : Word) :
    sdivResult a b =
      ⟨a.sdiv b, a.srem b, { z := some (decide (a.sdiv b = 0#32)), c := some false, n := some (a.sdiv b).msb }⟩ := by
  have hq : BitVec.ofInt 32 (a.toInt.tdiv b.toInt) = a.sdiv b := by
    rw [← BitVec.toInt_inj, BitVec.toInt_ofInt, BitVec.toInt_sdiv]
  have hr : BitVec.ofInt 32 (a.toInt.tmod b.toInt) = a.srem b := by
    rw [← BitVec.toInt_srem, BitVec.ofInt_toInt]
  simp only [sdivResult, divSem, hq, hr, flagsZCN_mk, beq_eq_decide, if_true]

/-- A nonzero remainder has the sign of the dividend. -/
theorem tmod_eq_zero_or_neg_iff (m n : Int) : m.tmod n = 0 ∨ (m.tmod n < 0 ↔ m < 0) := by
  rcases le_or_gt 0 m with hm | hm
  · have := Int.tmod_nonneg n hm
    omega
  · have := Int.tmod_nonneg n (show 0 ≤ -m by omega)
    rw [Int.neg_tmod] at this
    omega

/-- Settles O27. -/
theorem quotientResultAndFlags : Obligations.QuotientResultAndFlags := by
  intro a b hb
  rw [udivResult_eq, sdivResult_eq]
  refine ⟨⟨?_, ?_, rfl⟩, rfl, ?_, fun hne => ⟨?_, ?_, ?_⟩⟩
  · show a.toNat = (a / b).toNat * b.toNat + (a % b).toNat
    rw [BitVec.toNat_udiv, BitVec.toNat_umod, Nat.div_add_mod']
  · exact BitVec.umod_lt a ((BitVec.pos_iff_ne_zero b).2 hb)
  · rintro ⟨rfl, rfl⟩
    decide
  · have hq : (a.sdiv b).toInt = a.toInt.tdiv b.toInt :=
      BitVec.toInt_sdiv_of_ne_or_ne a b (not_and_or.1 hne)
    show a.toInt = (a.sdiv b).toInt * b.toInt + (a.srem b).toInt
    rw [hq, BitVec.toInt_srem, Int.tdiv_mul_add_tmod]
  · have hb0 : b.toInt ≠ 0 := fun h => hb (BitVec.toInt_inj.1 h)
    show (a.srem b).toInt.natAbs < b.toInt.natAbs
    rw [BitVec.toInt_srem, Int.natAbs_tmod]
    exact Nat.mod_lt _ (Int.natAbs_pos.2 hb0)
  · show (a.srem b).toInt = 0 ∨ ((a.srem b).toInt < 0 ↔ a.toInt < 0)
    rw [BitVec.toInt_srem]
    exact tmod_eq_zero_or_neg_iff _ _

/-! ## Shifts and rotates (R106) -/

/-- A shift out of all 32 bits leaves nothing, so a count of 0 needs no case of its own. -/
theorem rotlResult_value (a b : Word) : (rotlResult a b).value = a.rotateLeft (b.toNat % 32) := by
  show (if b.toNat % 32 = 0 then a else a <<< (b.toNat % 32) ||| a >>> (32 - b.toNat % 32)) = _
  rw [BitVec.rotateLeft_def, Nat.mod_mod]
  split_ifs with h
  · simp [h, BitVec.ushiftRight_eq_zero]
  · rfl

theorem rotrResult_value (a b : Word) : (rotrResult a b).value = a.rotateRight (b.toNat % 32) := by
  show (if b.toNat % 32 = 0 then a else a >>> (b.toNat % 32) ||| a <<< (32 - b.toNat % 32)) = _
  rw [BitVec.rotateRight_def, Nat.mod_mod]
  split_ifs with h
  · simp [h, BitVec.shiftLeft_eq_zero]
  · rfl

/-- Bit `i` goes to bit `i + s`, round the end. -/
theorem getLsbD_rotateLeft_add (a : Word) {s i : Nat} (hs : s < 32) (hi : i < 32) :
    (a.rotateLeft s).getLsbD ((i + s) % 32) = a.getLsbD i := by
  rw [BitVec.getLsbD_rotateLeft, Nat.mod_eq_of_lt hs]
  rcases Nat.lt_or_ge (i + s) 32 with h | h
  · rw [Nat.mod_eq_of_lt h]
    simp [h]
  · have hwrap : (i + s) % 32 = i + s - 32 := by omega
    rw [hwrap]
    simp [show i + s - 32 < s by omega, show 32 - s + (i + s - 32) = i by omega]

/-- Bit `i` comes from bit `i + s`, round the end. -/
theorem getLsbD_rotateRight_add (a : Word) {s i : Nat} (hs : s < 32) (hi : i < 32) :
    (a.rotateRight s).getLsbD i = a.getLsbD ((i + s) % 32) := by
  rw [BitVec.getLsbD_rotateRight, Nat.mod_eq_of_lt hs]
  rcases Nat.lt_or_ge (i + s) 32 with h | h
  · rw [Nat.mod_eq_of_lt h]
    simp [show i < 32 - s by omega, Nat.add_comm]
  · have hwrap : (i + s) % 32 = i - (32 - s) := by omega
    rw [hwrap]
    simp [show ¬ i < 32 - s by omega, hi]

/-- C: the last bit out, 0 for a count of 0. -/
theorem carry_eq (s : Nat) (last : Bool) : (s != 0 && last) = (decide (s ≠ 0) && last) := by
  cases s <;> rfl

theorem flagsShift_eq (r : Word) (s : Nat) (last : Bool) :
    flagsShift r (s != 0 && last) =
      { z := some (decide (r = 0#32)), c := some (decide (s ≠ 0) && last), n := some r.msb } := by
  rw [flagsShift, beq_eq_decide, carry_eq]

theorem flagsShr_eq (r : Word) (s : Nat) (last : Bool) :
    flagsShr r (s != 0 && last) =
      { z := some (decide (r = 0#32)), c := some (decide (s ≠ 0) && last), n := some false } := by
  rw [flagsShr, beq_eq_decide, carry_eq]

/-- Settles O28. -/
theorem shiftAndRotateResults : Obligations.ShiftAndRotateResults := by
  intro a b s flags
  have hs : s < 32 := Nat.mod_lt _ (by decide)
  refine ⟨⟨?_, flagsShift_eq ..⟩, ⟨?_, flagsShr_eq ..⟩, ⟨?_, flagsShift_eq ..⟩, ⟨fun i hi => ?_, flagsShift_eq ..⟩,
    fun i hi => ?_, flagsShift_eq ..⟩
  · show (a <<< s).toNat = a.toNat * 2 ^ s % 2 ^ 32
    rw [BitVec.toNat_shiftLeft, Nat.shiftLeft_eq]
  · show (a >>> s).toNat = a.toNat / 2 ^ s
    rw [BitVec.toNat_ushiftRight, Nat.shiftRight_eq_div_pow]
  · show (a.sshiftRight s).toInt = a.toInt / 2 ^ s
    rw [BitVec.toInt_sshiftRight, Int.shiftRight_eq_div_pow]
    norm_cast
  · rw [rotlResult_value]
    exact getLsbD_rotateLeft_add a hs hi
  · rw [rotrResult_value]
    exact getLsbD_rotateRight_add a hs hi

/-! ## Logic and extensions (R105, R182 to R187) -/

/-- Settles O29. -/
theorem logicAndExtensionResults : Obligations.LogicAndExtensionResults := by
  intro a b
  refine ⟨fun i hi => ⟨BitVec.getLsbD_and, BitVec.getLsbD_or, ?_, ?_⟩, ⟨?_, ?_⟩, ⟨?_, ?_⟩, ?_⟩
  · exact BitVec.getLsbD_xor
  · show (~~~a).getLsbD i = !a.getLsbD i
    simp [hi]
  · exact (BitVec.toNat_setWidth_of_le (by decide)).trans (toNat_extractLsb'_zero a _)
  · exact (BitVec.toNat_setWidth_of_le (by decide)).trans (toNat_extractLsb'_zero a _)
  · exact (BitVec.toInt_signExtend_of_le (by decide)).trans (toInt_extractLsb'_zero (by decide) a)
  · exact (BitVec.toInt_signExtend_of_le (by decide)).trans (toInt_extractLsb'_zero (by decide) a)
  · simp only [List.forall_mem_cons, List.not_mem_nil, false_imp_iff, implies_true, and_true]
    exact ⟨flagsLogic_eq _, flagsLogic_eq _, flagsLogic_eq _, flagsLogic_eq _, flagsLogic_eq _, flagsLogic_eq _,
      flagsLogic_eq _, flagsLogic_eq _⟩

end Sys2Proof.Machine
end

section
/-! PROOFS. The arithmetic and logic forms with a general destination: the result, the flags, and nothing else
(40_alu.md R100, R103, R104). -/

namespace Sys2Proof.Machine

open Sys2Proof.Rows

/-- Writes of r0 to r13 and the flags end in no context switch. -/
theorem conclude_writeAlu {x : Reg} (hx : x.toNat < 14) (s : State) (g : Guard) (o : AluOut) :
    s.conclude (writeAlu g x o s) = (s.setGeneral x o.value).setFlags g o.flags := by
  rw [writeAlu_eq, writeReg_general hx]
  exact conclude_ok fun hp => by simpa using hp

theorem conclude_writeWide {x : Reg} (hx : x.toNat < 14) (s : State) (g : Guard) (o : WideOut) :
    s.conclude (writeWide g x o s) = ((s.setGeneral x o.first).setGeneral 10#4 o.second).setFlags g o.flags := by
  rw [writeWide_eq, writeReg_general hx]
  exact conclude_ok fun hp => by simpa using hp

/-- Settles O30. -/
theorem aluRegisterCompletes : Obligations.AluRegisterCompletes := by
  intro s i g x o h hw hc hx
  rw [(runsTo_aluRegister h).exec_of_holds hw hc, conclude_writeAlu hx]

/-- Settles O31. -/
theorem aluImmediateCompletes : Obligations.AluImmediateCompletes := by
  intro s i g x o h hw hc hx
  rw [(runsTo_aluImmediate h).exec_of_holds hw hc, conclude_writeAlu hx]

/-- Settles O32: a zero divisor traps before the destination is looked at. -/
theorem multiplyAndDivideComplete : Obligations.MultiplyAndDivideComplete := by
  refine fun s i g x o hw hc => ⟨fun h hx => ?_, fun b h hb hx => ?_, fun h => ?_⟩
  · rw [(runsTo_multiply h).exec_of_holds hw hc, conclude_writeWide hx]
  · rw [(runsTo_divide h).exec_of_holds hw hc, if_neg hb, conclude_writeWide hx]
  · rw [(runsTo_divide h).exec_of_holds hw hc, if_pos rfl, conclude_error]

end Sys2Proof.Machine
end

section
/-! PROOFS. The stores and the stepping forms: every store is one `MemWrite`, a step of a general register changes
nothing that a store looks at, and the stepping forms with any registers are their listing's statements (41_store.md
R140 to R157; 42_load.md R160, R177). -/

namespace Sys2Proof.Machine

open Sys2Proof.Rows

/-! ## A store and a register step -/

/-- A write of memory and a plain write of a register commute. -/
theorem setGeneral_setMem (s : State) (m : Memory) (x : Reg) (v : Word) :
    { s with mem := m }.setGeneral x v = { s.setGeneral x v with mem := m } := by
  unfold State.setGeneral
  split_ifs <;> rfl

/-- A plain write of a register changes no bit of `sr`. -/
theorem flagP_setGeneral (s : State) (x : Reg) (v : Word) : (s.setGeneral x v).flagP = s.flagP := by
  simp only [State.flagP, State.setGeneral_sr]

/-- A step of a general register after a store is the step before it: neither sees the other (41_store.md R141). -/
theorem memWrite_bind_writeReg {x : Reg} (hx : x.toNat < 14) (step : Word → Word) (s : State) (a : Word) (w : Width)
    (v : Word) :
    (memWrite s a w v >>= fun t => t.writeReg x (step (t.readReg x))) =
      memWrite (s.setGeneral x (step (s.readReg x))) a w v := by
  have hacc := accessFails_congr (State.setGeneral_failing s x (step (s.readReg x))) .write a w
  cases ha : misaligned a w with
  | true => rw [memWrite_misaligned v ha, memWrite_misaligned v ha]; rfl
  | false =>
    cases hf : accessFails s .write a w with
    | true => rw [memWrite_fails v ha hf, memWrite_fails v ha (hacc.trans hf)]; rfl
    | false =>
      rw [memWrite_ok v ⟨ha, hf⟩, memWrite_ok v ⟨ha, hacc.trans hf⟩, State.setGeneral_mem]
      exact (writeReg_general hx _).trans (congrArg _ (setGeneral_setMem ..))

/-- A stepping store with a general base: one store from the stepped state, its address and value read before a
post-step and after a pre-decrement (41_store.md R140, R141). -/
theorem storeOffset_general {x : Reg} (hx : x.toNat < 14) {u : Update} (hu : u ≠ .none) (w : Width) (y : Reg)
    (off : Word) (s : State) :
    let stepped := s.setGeneral x (if u = .postInc then s.readReg x + widthStep w else s.readReg x - widthStep w)
    let base := if u = .preDec then stepped else s
    storeOffset w u x y off s = memWrite stepped (base.readReg x + off) w (base.readReg y) := by
  cases u with
  | none => exact absurd rfl hu
  | postInc => exact memWrite_bind_writeReg hx (· + widthStep w) ..
  | postDec => exact memWrite_bind_writeReg hx (· - widthStep w) ..
  | preDec =>
    show (s.writeReg x _ >>= storeAt w x y off) = _
    rw [writeReg_general hx]
    rfl

/-- An instruction that comes to one store, from a state `t` in which at most general registers have been stepped. -/
theorem store_completes {s t : State} {a v : Word} {w : Width} {o : Host.Outcome State Fault Refusal}
    (ho : o = .next (s.conclude (memWrite t a w v))) (hwf : s.mem.wf = true) (hmem : t.mem = s.mem)
    (hfail : t.failing = s.failing) (hP : t.flagP = s.flagP) :
    (s.CanAccess .write a w → ∃ u, o = .next u ∧ StoredAt s.mem u.mem a w v ∧ u = { t with mem := u.mem }) ∧
    (misaligned a w = true → o = .next (s.trapEntry .align)) ∧
    (misaligned a w = false → accessFails s .write a w = true → o = .next (s.trapEntry .access)) := by
  subst ho
  have hacc := accessFails_congr hfail .write a w
  refine ⟨fun ⟨ha, hf⟩ => ?_, fun ha => ?_, fun ha hf => ?_⟩
  · rw [memWrite_ok v ⟨ha, hacc.trans hf⟩]
    exact ⟨_, congrArg _ (conclude_ok fun hp => hP.trans hp), hmem ▸ storedAt_storeBytes (hmem ▸ hwf) a w v, rfl⟩
  · rw [memWrite_misaligned v ha, conclude_error]
  · rw [memWrite_fails v ha (hacc.trans hf), conclude_error]

/-! ## A load and an index step -/

/-- A word load that steps a general index register, to a general destination (42_load.md R177). -/
theorem loadIndexedInc_general {s : State} {x y z : Reg} (hx : x.toNat < 14) (hz : z.toNat < 14)
    (ha : s.CanAccess .read (s.readReg y + s.readReg z) .word) :
    let loaded := s.setGeneral x (s.busValue .read (s.readReg y + s.readReg z) .word)
    loadIndexedInc x y z s = .ok (loaded.setGeneral z (loaded.readReg z + 4#32)) := by
  intro loaded
  have hload : loadIndexed .word x y z s = .ok loaded := (loadTo_ok ha x).trans (writeReg_general hx _)
  rw [loadIndexedInc, hload]
  exact writeReg_general hz _

/-! ## How `exec` runs a row -/

theorem runsTo_store {s : State} {i : Instr} {g : Guard} {w : Width} {a v : Word} (h : StoreRow s i g w a v) :
    RunsTo s i g (memWrite s a w v) := by
  cases h with
  | stb | sth | stw | stbx | sthx | stwx => exact runsTo_std rfl rfl
  | cStbx | cSthx | cStwx => exact runsTo_compact rfl rfl
  | cStb | cSth | cStw =>
    rw [← readReg_dsp_add_immMem_zero s]
    exact runsTo_compact rfl rfl

theorem runsTo_storeUpdate {i : Instr} {g : Guard} {x y : Reg} {w : Width} {u : Update} {off : Word}
    (h : StoreUpdateRow i g x y w u off) (s : State) : RunsTo s i g (storeOffset w u x y off s) := by
  cases h with
  | stbi | stbp | stbd | sthi | sthp | sthd | stwi | stwp | stwd => exact runsTo_std rfl rfl
  | cStbi | cStbp | cStbd | cSthi | cSthp | cSthd | cStwi | cStwp | cStwd => exact runsTo_compact rfl rfl

theorem runsTo_loadUpdate {i : Instr} {g : Guard} {x y : Reg} {w : Width} {u : Update} {off : Word}
    (h : LoadUpdateRow i g x y w u off) (s : State) : RunsTo s i g (loadOffset w u x y off s) := by
  cases h with
  | lbi | lbp | lbd | lhi | lhp | lhd | lwi | lwp | lwd => exact runsTo_std rfl rfl
  | cLbi | cLbp | cLbd | cLhi | cLhp | cLhd | cLwi | cLwp | cLwd => exact runsTo_compact rfl rfl

theorem runsTo_storeIndex {i : Instr} {g : Guard} {x y z : Reg} (h : StoreIndexRow i g x y z) (s : State) :
    RunsTo s i g (storeIndexedInc x y z s) := by
  cases h with
  | stwxi => exact runsTo_std rfl rfl
  | cStwxi => exact runsTo_compact rfl rfl

theorem runsTo_loadIndex {i : Instr} {g : Guard} {x y z : Reg} (h : LoadIndexRow i g x y z) (s : State) :
    RunsTo s i g (loadIndexedInc x y z s) := by
  cases h with
  | lwxi => exact runsTo_std rfl rfl
  | cLwxi => exact runsTo_compact rfl rfl

/-- Every row of the stepping stores names a step. -/
theorem storeUpdateRow_ne_none {i : Instr} {g : Guard} {x y : Reg} {w : Width} {u : Update} {off : Word}
    (h : StoreUpdateRow i g x y w u off) : u ≠ .none := by
  cases h <;> decide

/-- Every row of the stepping loads names a step. -/
theorem loadUpdateRow_ne_none {i : Instr} {g : Guard} {x y : Reg} {w : Width} {u : Update} {off : Word}
    (h : LoadUpdateRow i g x y w u off) : u ≠ .none := by
  cases h <;> decide

/-- The statements may be written in any equal form. -/
theorem RunsTo.exec_of_eq {s : State} {i : Instr} {g : Guard} {e e' : Effect} (h : RunsTo s i g e)
    (hw : g.wellFormed = true) (hc : s.condHolds g = true) (he : e = e') : exec i s = .next (s.conclude e') :=
  he ▸ h.exec_of_holds hw hc

/-! ## The statements -/

/-- Settles O42: each row is one store from the state itself. -/
theorem storesComplete : Obligations.StoresComplete := by
  intro s i g w a v h hw hc hwf
  exact store_completes ((runsTo_store h).exec_of_holds hw hc) hwf rfl rfl rfl

/-- Settles O43: each row is one store from the stepped state. -/
theorem updatingStoresComplete : Obligations.UpdatingStoresComplete := by
  intro s i g x y w u off h hw hc hwf hx k stepped base a
  have hrun := (runsTo_storeUpdate h s).exec_of_holds hw hc
  rw [storeOffset_general hx (storeUpdateRow_ne_none h)] at hrun
  exact store_completes hrun hwf (State.setGeneral_mem ..) (State.setGeneral_failing ..) (flagP_setGeneral ..)

/-- Settles O44. -/
theorem indexStepsComplete : Obligations.IndexStepsComplete := by
  refine fun s i g x y z hw hc hwf => ⟨fun h hz ha => ?_, fun h hx hz ha => ?_⟩
  · have hrun := (runsTo_storeIndex h s).exec_of_holds hw hc
    have hstore : storeIndexedInc x y z s = memWrite (s.setGeneral z (s.readReg z + 4#32))
        (s.readReg x + s.readReg z) .word (s.readReg y) := memWrite_bind_writeReg hz (· + 4#32) ..
    rw [hstore] at hrun
    obtain ⟨hdone, -, -⟩ :=
      store_completes hrun hwf (State.setGeneral_mem ..) (State.setGeneral_failing ..) (flagP_setGeneral ..)
    exact hdone ha
  · rw [(runsTo_loadIndex h s).exec_of_holds hw hc, loadIndexedInc_general hx hz ha]
    exact congrArg _ (conclude_ok fun hp => by rwa [flagP_setGeneral, flagP_setGeneral])

/-- Settles O45: the shared statements are the listing's, up to how their sequence is bracketed. -/
theorem steppingFormsWithAnyRegisters : Obligations.SteppingFormsWithAnyRegisters := by
  refine fun s i g x y hw hc => ⟨fun w u off h => ?_, fun w u off h => ?_, fun z h => ?_, fun z h => ?_⟩
  · refine (runsTo_storeUpdate h s).exec_of_eq hw hc ?_
    cases u with
    | none => exact absurd rfl (storeUpdateRow_ne_none h)
    | postInc | postDec => rfl
    | preDec => exact bind_congr fun _ => (bind_pure _).symm
  · refine (runsTo_loadUpdate h s).exec_of_eq hw hc ?_
    cases u with
    | none => exact absurd rfl (loadUpdateRow_ne_none h)
    | postInc | postDec => exact bind_assoc _ _ _
    | preDec => exact bind_congr fun _ => bind_congr fun _ => (bind_pure _).symm
  · exact (runsTo_storeIndex h s).exec_of_holds hw hc
  · refine (runsTo_loadIndex h s).exec_of_eq hw hc ?_
    exact bind_assoc _ _ _

end Sys2Proof.Machine
end

section
/-! PROOFS. The loads: every load reads once, and with general registers nothing else in its listing can trap, so its
traps are those of the read and its result is what the listing does with the value (42_load.md R160 to R176). -/

namespace Sys2Proof.Machine

open Sys2Proof.Rows

/-! ## A load that reads, then goes on -/

/-- A plain write of a register changes nothing that a read looks at. -/
theorem memRead_setGeneral (s : State) (x : Reg) (v : Word) (kind : AccessKind) (a : Word) (w : Width) :
    memRead (s.setGeneral x v) kind a w = memRead s kind a w := by
  have hfail := accessFails_congr (State.setGeneral_failing s x v) kind a w
  have hbus := busValue_congr (State.setGeneral_memMap s x v) (State.setGeneral_busTime s x v)
    (State.setGeneral_mem s x v) kind a w
  simp only [memRead, hfail, hbus]

/-- An instruction that reads once and goes on with the value: it does so, or takes the trap of the read (20_memory.md
R55). -/
theorem load_completes {s : State} {a : Word} {w : Width} {rest : Word → Effect}
    {o : Host.Outcome State Fault Refusal} (ho : o = .next (s.conclude ((memRead s .read a w).bind rest))) :
    (s.CanAccess .read a w → o = .next (s.conclude (rest (s.busValue .read a w)))) ∧
    (misaligned a w = true → o = .next (s.trapEntry .align)) ∧
    (misaligned a w = false → accessFails s .read a w = true → o = .next (s.trapEntry .access)) := by
  subst ho
  refine ⟨fun ha => ?_, fun ha => ?_, fun ha hf => ?_⟩
  · rw [memRead_ok ha]; rfl
  · rw [memRead_misaligned ha]; rfl
  · rw [memRead_fails ha hf]; rfl

/-! ## The step of the base -/

/-- The state from which a stepping load computes its address (42_load.md R160). -/
def beforeLoad (u : Update) (w : Width) (y : Reg) (s : State) : State :=
  if u = .preDec then s.setGeneral y (s.readReg y - widthStep w) else s

/-- The step of the base after the load, a general register (42_load.md R160). -/
def afterLoad (u : Update) (w : Width) (y : Reg) (s : State) : State :=
  match u with
  | .postInc => s.setGeneral y (s.readReg y + widthStep w)
  | .postDec => s.setGeneral y (s.readReg y - widthStep w)
  | _ => s

@[simp] theorem flagP_beforeLoad (u : Update) (w : Width) (y : Reg) (s : State) :
    (beforeLoad u w y s).flagP = s.flagP := by
  unfold beforeLoad
  split_ifs
  · exact flagP_setGeneral ..
  · rfl

@[simp] theorem flagP_afterLoad (u : Update) (w : Width) (y : Reg) (s : State) :
    (afterLoad u w y s).flagP = s.flagP := by
  cases u with
  | none | preDec => rfl
  | postInc | postDec => exact flagP_setGeneral ..

/-- A stepping load with a general destination and base: one read, at an address that a pre-decrement has changed;
then the value to the destination; then the step of the base as the destination has left it (42_load.md R160, R161). -/
theorem loadOffset_general {x y : Reg} (hx : x.toNat < 14) (hy : y.toNat < 14) (u : Update) (w : Width) (off : Word)
    (s : State) :
    let base := beforeLoad u w y s
    loadOffset w u x y off s = (memRead s .read (base.readReg y + off) w).bind fun m =>
      .ok (afterLoad u w y (base.setGeneral x (mergeLoad w (base.readReg x) m))) := by
  have post (step : Word → Word) :
      (loadAt w x y off s >>= fun t => t.writeReg y (step (t.readReg y))) =
        (memRead s .read (s.readReg y + off) w).bind fun m =>
          let loaded := s.setGeneral x (mergeLoad w (s.readReg x) m)
          .ok (loaded.setGeneral y (step (loaded.readReg y))) := by
    refine (bind_assoc _ _ _).trans (bind_congr fun m => ?_)
    rw [writeReg_general hx]
    exact writeReg_general hy _
  cases u with
  | none => exact bind_congr fun m => writeReg_general hx _
  | postInc => exact post (· + widthStep w)
  | postDec => exact post (· - widthStep w)
  | preDec =>
    show (s.writeReg y _ >>= loadAt w x y off) = _
    rw [writeReg_general hy, ← memRead_setGeneral s y (s.readReg y - widthStep w)]
    exact bind_congr fun m => writeReg_general hx _

/-! ## The statements -/

/-- Settles O40: each row is one read, then the merged value to the destination. -/
theorem loadsComplete : Obligations.LoadsComplete := by
  intro s i g x w a h hw hc m old v
  obtain ⟨hdone, halign, haccess⟩ := load_completes ((runsTo_load h).exec_of_holds hw hc)
  refine ⟨fun hx ha => ?_, halign, haccess⟩
  have hmerge : mergeLoad w old m = v := by cases w <;> rfl
  rw [hdone ha, writeReg_general hx, hmerge]
  exact congrArg _ (conclude_ok fun hp => (flagP_setGeneral ..).trans hp)

/-- Settles O41: each row is one read, then register writes that end in no context switch. -/
theorem updatingLoadsComplete : Obligations.UpdatingLoadsComplete := by
  intro s i g x y w u off h hw hc hx hy k base a loaded t
  have hrun := (runsTo_loadUpdate h s).exec_of_holds hw hc
  rw [loadOffset_general hx hy] at hrun
  obtain ⟨hdone, halign, haccess⟩ := load_completes hrun
  refine ⟨fun ha => (hdone ha).trans ?_, halign, haccess⟩
  exact congrArg _ (conclude_ok fun hp => by simpa using hp)

end Sys2Proof.Machine
end

section
/-! PROOFS. The two-operand forms that are neither arithmetic nor memory: the one-source operations and the moves with a
general destination, `cmp`, `swp` and `smov` (43_two_operand.md R180 to R195, R210, R211). -/

namespace Sys2Proof.Machine

open Sys2Proof.Rows

/-! ## What the shared statements come to -/

/-- A write of r0 to r13 ends in no context switch. -/
theorem conclude_writeReg_general {x : Reg} (hx : x.toNat < 14) (s : State) (v : Word) :
    s.conclude (s.writeReg x v) = s.setGeneral x v := by
  rw [writeReg_general hx]
  exact conclude_ok fun hp => (State.setGeneral_flagP ..).trans hp

/-- Two writes of r0 to r13 cannot trap: the second value was read before the first write (R181). -/
theorem swap_general {x y : Reg} (hx : x.toNat < 14) (hy : y.toNat < 14) (s : State) :
    swap x y s = .ok ((s.setGeneral x (s.readReg y)).setGeneral y (s.readReg x)) := by
  unfold swap
  rw [writeReg_general hx]
  exact writeReg_general hy _

/-- In protected mode a system mode instruction traps before its statements (60_exceptions.md R275). -/
theorem systemOnly_of_protected {s : State} (hp : s.flagP = true) (k : Trap) (body : State → Effect) :
    systemOnly k body s = .error k :=
  if_pos hp

theorem systemOnly_of_system {s : State} (hp : s.flagP = false) (k : Trap) (body : State → Effect) :
    systemOnly k body s = body s :=
  if_neg (by simp [hp])

/-- The numbers 0 to 12 name no system register (R194, R195). -/
theorem sysRegOf_reserved {x : Reg} (h : x.toNat < 13) : sysRegOf x = none := by
  revert x
  decide

theorem moveToSystem_reserved {x : Reg} (hx : x.toNat < 13) (y : Reg) (s : State) :
    moveToSystem x y s = .error .invalidOpcode := by
  rw [moveToSystem, sysRegOf_reserved hx]

theorem moveFromSystem_reserved {y : Reg} (hy : y.toNat < 13) (x : Reg) (s : State) :
    moveFromSystem x y s = .error .invalidOpcode := by
  rw [moveFromSystem, sysRegOf_reserved hy]

/-- The numbers 13, 14, 15 are `ssp`, `sii` with its low two bits 0, and `spc` (10_state.md R34 to R36). -/
theorem moveFromSystem_named {y : Reg} (hy : 13 ≤ y.toNat) (x : Reg) (s : State) :
    moveFromSystem x y s =
      s.writeReg x (if y = 13#4 then s.ssp else if y = 14#4 then s.sii &&& 0xFFFFFFFC#32 else s.spc) := by
  rcases reg_cases y with h | rfl | rfl | rfl | rfl
  · omega
  · exact absurd hy (by decide)
  · rfl
  · rfl
  · rfl

/-- A write of a system register ends in no context switch: it does not touch `sr`. -/
theorem conclude_writeSys (s : State) (r : SysReg) (v : Word) : s.conclude (.ok (s.writeSys r v)) = s.writeSys r v :=
  conclude_ok fun hp => by cases r <;> exact hp

/-! ## How `exec` runs a row -/

theorem runsTo_swap {i : Instr} {g : Guard} {x y : Reg} (h : SwapRow i g x y) (s : State) :
    RunsTo s i g (swap x y s) := by
  cases h with
  | swp => exact runsTo_std rfl rfl
  | cSwp => exact runsTo_compact rfl rfl

theorem runsTo_compare {i : Instr} {g : Guard} {x y : Reg} (h : CompareRow i g x y) (s : State) :
    RunsTo s i g (compare g x y s) := by
  cases h with
  | cmp => exact runsTo_std rfl rfl
  | cCmp => exact runsTo_compact rfl rfl

theorem runsTo_systemWrite {i : Instr} {g : Guard} {x y : Reg} (h : SystemWriteRow i g x y) (s : State) :
    RunsTo s i g (systemOnly .protection (moveToSystem x y) s) := by
  cases h with
  | smovTo => exact runsTo_std rfl rfl
  | cSmovTo => exact runsTo_compact rfl rfl

theorem runsTo_systemRead {i : Instr} {g : Guard} {x y : Reg} (h : SystemReadRow i g x y) (s : State) :
    RunsTo s i g (systemOnly .protection (moveFromSystem x y) s) := by
  cases h with
  | smovFrom => exact runsTo_std rfl rfl
  | cSmovFrom => exact runsTo_compact rfl rfl

/-- What a system mode instruction whose condition holds comes to in either mode (60_exceptions.md R275). -/
theorem exec_systemOnly {s : State} {i : Instr} {g : Guard} {body : State → Effect}
    (h : RunsTo s i g (systemOnly .protection body s)) (hw : g.wellFormed = true) (hc : s.condHolds g = true) :
    (s.flagP = true → exec i s = .next (s.trapEntry .protection)) ∧
      (s.flagP = false → exec i s = .next (s.conclude (body s))) :=
  ⟨fun hp => h.exec_of_eq hw hc (systemOnly_of_protected hp ..),
    fun hp => h.exec_of_eq hw hc (systemOnly_of_system hp ..)⟩

/-! ## The statements -/

/-- Settles O33: a result with flags, a plain result, and flags without a result. -/
theorem unaryMoveAndCompareComplete : Obligations.UnaryMoveAndCompareComplete := by
  refine fun s i g hw hc => ⟨fun x o h hx => ?_, fun x v h hx => ?_, fun x y h => ?_⟩
  · rw [(runsTo_unary h).exec_of_holds hw hc, conclude_writeAlu hx]
  · rw [(runsTo_move h).exec_of_holds hw hc, conclude_writeReg_general hx]
  · rw [(runsTo_compare h s).exec_of_holds hw hc]
    exact congrArg _ (conclude_ok fun hp => (State.setFlags_flagP ..).trans hp)

/-- Settles O34: the two writes in their order, which for r0 to r13 neither trap nor switch the mode. -/
theorem swapCompletes : Obligations.SwapCompletes := by
  intro s i g x y h hw hc
  have hrun := (runsTo_swap h s).exec_of_holds hw hc
  refine ⟨fun hx hy => ?_, hrun⟩
  rw [hrun, swap_general hx hy]
  exact congrArg _ (conclude_ok fun hp => by simpa using hp)

/-- Settles O38: the mode is looked at first, then the register number, and then the move is done. -/
theorem systemMovesComplete : Obligations.SystemMovesComplete := by
  refine fun s i g x y hw hc => ⟨fun h => ?_, fun h => ?_⟩
  · obtain ⟨hprotected, hsystem⟩ := exec_systemOnly (runsTo_systemWrite h s) hw hc
    refine ⟨hprotected, fun hp hx => ?_, ?_, ?_, ?_⟩
    · rw [hsystem hp, moveToSystem_reserved hx, conclude_error]
    · rintro hp rfl
      exact (hsystem hp).trans (congrArg _ (conclude_writeSys s .ssp _))
    · rintro hp rfl
      exact (hsystem hp).trans (congrArg _ (conclude_writeSys s .sii _))
    · rintro hp rfl
      exact (hsystem hp).trans (congrArg _ (conclude_writeSys s .spc _))
  · obtain ⟨hprotected, hsystem⟩ := exec_systemOnly (runsTo_systemRead h s) hw hc
    refine ⟨hprotected, fun hp hy => ?_, fun hp hy => ?_⟩
    · rw [hsystem hp, moveFromSystem_reserved hy, conclude_error]
    · intro v
      have hmove : exec i s = .next (s.conclude (s.writeReg x v)) := by
        rw [hsystem hp, moveFromSystem_named hy]
      exact ⟨fun hx => by rw [hmove, conclude_writeReg_general hx], hmove⟩

end Sys2Proof.Machine
end

section
/-! PROOFS. The transfers of control beside the branches: `jf`, the calls and `ret`, the fast calls and `fret`, `int`.
Each is what it does before, then a write of `pc` that goes through or takes trap 7 (44_one_operand.md R202, R204 to
R209, R212 to R215; 45_zero_operand.md R220, R221). -/

namespace Sys2Proof.Machine

open Sys2Proof.Rows

/-! ## The write of `pc` that ends a transfer -/

/-- Statements that have left the mode alone end with a write of `pc`: the transfer is made, or trap 7 undoes it
(10_state.md R23). -/
theorem conclude_writePc {s t : State} (hmode : t.flagP = s.flagP) (v : Word) :
    (aligned4 v = true → s.conclude (t.writePc v) = { t with pc := v }) ∧
      (aligned4 v = false → s.conclude (t.writePc v) = s.trapEntry .pcAlign) := by
  refine ⟨fun ha => ?_, fun ha => ?_⟩
  · rw [writePc_ok ha]
    exact conclude_ok fun hp => hmode.trans hp
  · rw [writePc_error ha, conclude_error]

/-! ## `jf` -/

theorem runsTo_jumpFar {i : Instr} {g : Guard} {n : Half} (h : JumpFarRow i g n) (s : State) :
    RunsTo s i g ((memRead s .read s.pc .word).bind fun w => s.writePc (lower16 w ++ n)) := by
  cases h with
  | jf => exact runsTo_std rfl rfl
  | cJf => exact runsTo_compact (body := jumpFar _) rfl rfl

/-- A target put together from two halves is aligned when its low half is (10_state.md R23). -/
theorem aligned4_append_half (high low : Half) : aligned4 (high ++ low) = (low.extractLsb' 0 2 == 0#2) := by
  have hlow : (high ++ low).extractLsb' 0 2 = low.extractLsb' 0 2 :=
    BitVec.extractLsb'_append_eq_of_add_le (by decide)
  rw [aligned4, hlow]

/-- Settles O47: one read at the aligned `pc`, then the write of `pc`. -/
theorem jumpFarCompletes : Obligations.JumpFarCompletes := by
  intro s i g n h hw hc hpc
  have hword : misaligned s.pc .word = false := by rw [misaligned_word, hpc]; rfl
  obtain ⟨hread, -, hfails⟩ := load_completes ((runsTo_jumpFar h s).exec_of_holds hw hc)
  obtain ⟨hjump, htrap⟩ := conclude_writePc (s := s) rfl (lower16 (s.busValue .read s.pc .word) ++ n)
  rw [aligned4_append_half] at hjump htrap
  refine ⟨fun hf hn => ?_, fun hf hn => ?_, hfails hword⟩
  · rw [hread ⟨hword, hf⟩, hjump (by simpa using hn)]
    rfl
  · rw [hread ⟨hword, hf⟩, htrap (by simpa using hn)]

/-! ## The frame of a call (60_exceptions.md R254) -/

/-- The two pushes of a call: `pc`, then `dsp` (44_one_operand.md R204). -/
def pushFrame (s : State) : Effect := (s.push s.pc).bind fun t => t.push s.dsp

/-- The state with the frame of a call on its stack. -/
def withFrame (s : State) : State :=
  { s with
    isp := s.isp - 8#32
    mem := storeBytes (storeBytes s.mem (s.isp - 4#32) .word s.pc) (s.isp - 8#32) .word s.dsp }

theorem pushFrame_ok {s : State} (h : s.CanPushTwo s.isp) : pushFrame s = .ok (withFrame s) :=
  push_push h s.pc s.dsp

/-- `isp` is misaligned: the first push traps. -/
theorem pushFrame_misaligned {s : State} (h : misaligned s.isp .word = true) : pushFrame s = .error .align := by
  have hpush : s.push s.pc = .error .align := memWrite_misaligned s.pc (by rwa [misaligned_sub_four])
  rw [pushFrame, hpush]
  rfl

/-- `isp` is aligned and one of the two words below it cannot be written: that push traps. -/
theorem pushFrame_fails {s : State} (ha : misaligned s.isp .word = false) (h : ¬ s.CanPushTwo s.isp) :
    pushFrame s = .error .access := by
  have ha4 : misaligned (s.isp - 4#32) .word = false := by rwa [misaligned_sub_four]
  have ha8 : misaligned (s.isp - 8#32) .word = false := by rwa [misaligned_sub_eight]
  cases hf4 : accessFails s .write (s.isp - 4#32) .word with
  | true =>
    have hpush : s.push s.pc = .error .access := memWrite_fails s.pc ha4 hf4
    rw [pushFrame, hpush]
    rfl
  | false =>
    have hf8 : accessFails s .write (s.isp - 8#32) .word = true := by
      by_contra hf8
      exact h ⟨ha, hf4, by simpa using hf8⟩
    have hpush : s.push s.pc =
        .ok { s with isp := s.isp - 4#32, mem := storeBytes s.mem (s.isp - 4#32) .word s.pc } :=
      memWrite_ok s.pc ⟨ha4, hf4⟩
    rw [pushFrame, hpush]
    simp only [Except.bind, State.push, sub_four_sub_four]
    exact memWrite_fails s.dsp ha8 hf8

/-- The shared statement of the calls: the frame, then the write of `pc`, its target read under the frame (R204,
R212). -/
theorem callTo_eq (target : State → Word) (s : State) :
    callTo target s = (pushFrame s).bind fun _ => (withFrame s).writePc (target (withFrame s)) := by
  have hframe : callTo target s = (pushFrame s).bind fun t => t.writePc (target t) := by
    unfold callTo pushFrame
    cases h : s.push s.pc with
    | error k => rfl
    | ok t =>
      obtain ⟨-, rfl⟩ := memWrite_cases h
      rfl
  rw [hframe]
  by_cases hcan : s.CanPushTwo s.isp
  · rw [pushFrame_ok hcan]
    rfl
  · cases ha : misaligned s.isp .word with
    | true => rw [pushFrame_misaligned ha]; rfl
    | false => rw [pushFrame_fails ha hcan]; rfl

theorem runsTo_call {s : State} {i : Instr} {g : Guard} {target : Word} (h : CallRow s i g target) :
    RunsTo s i g ((pushFrame s).bind fun _ => (withFrame s).writePc target) := by
  cases h with
  | call | callr | callX | callrX => exact runsTo_std rfl (callTo_eq ..)
  | cCall n => exact runsTo_compact (body := callTo fun _ => immCall (compactN16 n)) rfl (callTo_eq ..)
  | cCallr n => exact runsTo_compact (body := callTo fun s => s.pc + immCall (compactN16 n)) rfl (callTo_eq ..)
  | cCallX | cCallrX => exact runsTo_compact rfl (callTo_eq ..)

/-- Settles O48: the frame is pushed or a push traps, and then `pc` is written. -/
theorem callsComplete : Obligations.CallsComplete := by
  intro s i g target h hw hc hwf
  have hrun := (runsTo_call h).exec_of_holds hw hc
  obtain ⟨hgo, htrap⟩ := conclude_writePc (s := s) (t := withFrame s) rfl target
  refine ⟨fun hcan ha => ?_, fun hcan ha => ?_, fun ha => ?_, fun ha hcan => ?_⟩
  · rw [pushFrame_ok hcan] at hrun
    exact ⟨_, hrun.trans (congrArg _ (hgo ha)), pushedTwo_storeBytes hwf .., rfl⟩
  · rw [pushFrame_ok hcan] at hrun
    exact hrun.trans (congrArg _ (htrap ha))
  · rw [hrun, pushFrame_misaligned ha]
    rfl
  · rw [hrun, pushFrame_fails ha hcan]
    rfl

/-! ## `ret` after a call -/

/-- Four bytes that are those of `v` load as `v` (20_memory.md R52, R55): they load as if `v` alone had been stored. -/
theorem loadBytes_of_bytes {m : Memory} {a v : Word}
    (h : ∀ i < 4, readByte m (byteAddress a i) = valueByte v (byteLane 4 i)) : loadBytes m a .word = v := by
  obtain ⟨hstored, -⟩ := storedAt_storeBytes (m := []) rfl a .word v
  have same : ∀ j < 4, readByte m (byteAddress a (byteLane 4 j)) =
      readByte (storeBytes [] a .word v) (byteAddress a (byteLane 4 j)) := fun j hj =>
    (h _ (byteLane_lt hj)).trans (hstored _ (byteLane_lt hj)).symm
  calc loadBytes m a .word
      = loadBytes (storeBytes [] a .word v) a .word := by
        simp only [loadBytes, same 0 (by decide), same 1 (by decide), same 2 (by decide), same 3 (by decide)]
    _ = v := loadBytes_storeBytes_word rfl a v

/-- Two words pushed are the two words loaded, the second one lower. -/
theorem loadBytes_pushedTwo {before after : Memory} {top first second : Word}
    (h : PushedTwo before after top first second) :
    loadBytes after (top - 4#32) .word = first ∧ loadBytes after (top - 8#32) .word = second := by
  obtain ⟨hfirst, hsecond, -⟩ := h
  exact ⟨loadBytes_of_bytes hfirst, loadBytes_of_bytes hsecond⟩

theorem sub_eight_add_four (a : Word) : a - 8#32 + 4#32 = a - 4#32 := by
  rw [← sub_four_sub_four, BitVec.sub_add_cancel]

/-- `ret` with both words of its frame readable: `dsp` from the lower one, `pc` from the other (R220). -/
theorem returnFromCall_ok {s : State} (hd : s.CanAccess .read s.isp .word)
    (hp : s.CanAccess .read (s.isp + 4#32) .word) :
    returnFromCall s = State.writePc { s with dsp := s.busValue .read s.isp .word, isp := s.isp + 8#32 }
      (s.busValue .read (s.isp + 4#32) .word) := by
  rw [returnFromCall, memRead_ok hd, memRead_ok hp]
  rfl

/-- Settles O51: the call left `pc` and `dsp` in the two words that `ret` reads. -/
theorem returnUndoesCall : Obligations.ReturnUndoesCall := by
  intro s t i g target h hw hc ⟨hpc, _, _, hwf, _⟩ hcan htarget ht hreadD hreadP hmemD hmemP
  obtain ⟨hcall, -⟩ := callsComplete s i g target h hw hc hwf
  obtain ⟨u, hu, hpushed, hstate⟩ := hcall hcan htarget
  obtain rfl : t = u := by
    rw [ht] at hu
    cases hu
    rfl
  obtain ⟨hloadP, hloadD⟩ := loadBytes_pushedTwo hpushed
  have hisp : t.isp = s.isp - 8#32 := by rw [hstate]
  have hisp4 : t.isp + 4#32 = s.isp - 4#32 := by rw [hisp, sub_eight_add_four]
  obtain ⟨haligned, -, -⟩ := hcan
  have hd : t.busValue .read t.isp .word = s.dsp := by rw [busValue_memory hmemD, hisp, hloadD]
  have hp : t.busValue .read (t.isp + 4#32) .word = s.pc := by rw [busValue_memory hmemP, hisp4, hloadP]
  have haccD : t.CanAccess .read t.isp .word := ⟨by rwa [hisp, misaligned_sub_eight], hreadD⟩
  have haccP : t.CanAccess .read (t.isp + 4#32) .word := ⟨by rwa [hisp4, misaligned_sub_four], hreadP⟩
  have hret : exec (.ret .always) t = .next (t.conclude (returnFromCall t)) :=
    runStd_of_holds always_wellFormed (always_condHolds t) _
  obtain ⟨hback, -⟩ := conclude_writePc (s := t) (t := { t with dsp := s.dsp, isp := t.isp + 8#32 }) rfl s.pc
  rw [hret, returnFromCall_ok haccD haccP, hd, hp, hback hpc, hisp, BitVec.sub_add_cancel, hstate]

/-! ## The fast calls and `fret` -/

/-- The state in which a fast call reads its target: `dsp` in r8, `pc` in r9 (R206, R214). -/
def saveFast (s : State) : State := (s.setGeneral 8#4 s.dsp).setGeneral 9#4 s.pc

/-- The two writes of a fast call cannot trap. -/
theorem fastCallTo_eq (target : State → Word) (s : State) :
    fastCallTo target s = (saveFast s).writePc (target (saveFast s)) := by
  simp only [fastCallTo, saveFast, writeReg_general (show (8#4 : Reg).toNat < 14 by decide), bind, Except.bind,
    writeReg_general (show (9#4 : Reg).toNat < 14 by decide), State.setGeneral_pc]

theorem runsTo_fastCall {s : State} {i : Instr} {g : Guard} {target : Word} (h : FastCallRow s i g target) :
    RunsTo s i g ((saveFast s).writePc target) := by
  cases h with
  | fcall | fcallr | fcallX | fcallrX => exact runsTo_std rfl (fastCallTo_eq ..)
  | cFcall n => exact runsTo_compact (body := fastCallTo fun _ => immCall (compactN16 n)) rfl (fastCallTo_eq ..)
  | cFcallr n =>
    exact runsTo_compact (body := fastCallTo fun s => s.pc + immCall (compactN16 n)) rfl (fastCallTo_eq ..)
  | cFcallX | cFcallrX => exact runsTo_compact rfl (fastCallTo_eq ..)

theorem saveFast_flagP (s : State) : (saveFast s).flagP = s.flagP := by
  simp [saveFast]

/-- Settles O49: register writes that cannot trap, then the write of `pc`. -/
theorem fastCallsAndReturnComplete : Obligations.FastCallsAndReturnComplete := by
  intro s g hw hc
  have hfret : exec (.fret g) s =
      .next (s.conclude (State.writePc { s with dsp := s.readReg 8#4 } (s.readReg 9#4))) :=
    runStd_of_holds hw hc returnFromFastCall
  obtain ⟨hback, htrap⟩ := conclude_writePc (s := s) (t := { s with dsp := s.readReg 8#4 }) rfl (s.readReg 9#4)
  refine ⟨fun i target h => ?_, fun ha => hfret.trans (congrArg _ (hback ha)),
    fun ha => hfret.trans (congrArg _ (htrap ha))⟩
  obtain ⟨hgo, htrap⟩ := conclude_writePc (saveFast_flagP s) target
  have hrun := (runsTo_fastCall h).exec_of_holds hw hc
  exact ⟨fun ha => hrun.trans (congrArg _ (hgo ha)), fun ha => hrun.trans (congrArg _ (htrap ha))⟩

/-! ## `int` -/

theorem runsTo_softwareInterrupt {s : State} {i : Instr} {g : Guard} {v : Word} (h : SoftwareInterruptRow s i g v) :
    RunsTo s i g (softwareInterrupt v s) := by
  cases h with
  | int | intX => exact runsTo_std rfl rfl
  | cInt n => exact runsTo_compact (body := softwareInterrupt ((compactN16 n).zeroExtend 32)) rfl rfl
  | cIntX => exact runsTo_compact (body := fun s => softwareInterrupt (s.readReg _) s) rfl rfl

/-- No switch to protected mode follows an entry: it ends in system mode, or halts in the mode it started from. -/
theorem conclude_interruptEntry (s : State) (k : BitVec 8) :
    s.conclude (.ok (s.interruptEntry k)) = s.interruptEntry k := by
  refine conclude_ok fun hp => ?_
  rcases interruptEntry_flagP s k with hhalt | hsystem
  · rw [hhalt]
    exact getLsbD_nine_setBit hp (by decide) true
  · exact hsystem

/-- Settles O52. -/
theorem softwareInterruptCompletes : Obligations.SoftwareInterruptCompletes := by
  intro s i g v h hw hc
  have hrun := (runsTo_softwareInterrupt h).exec_of_holds hw hc
  refine ⟨fun hI => ?_, fun hI => ?_⟩
  · rw [hrun, softwareInterrupt, hI]
    exact congrArg _ (conclude_interruptEntry s (lower8 v))
  · rw [hrun, softwareInterrupt, hI]
    rfl

end Sys2Proof.Machine
end

section
/-! PROOFS. The zero-operand instructions: `ret` and `rfi` are two words popped off the call stack and a write of `pc`;
`sleep`, `rfi` and `brk` look at the mode first (45_zero_operand.md R220, R222 to R224; 60_exceptions.md R252 b, R273,
R275). -/

namespace Sys2Proof.Machine

/-! ## Two words popped off the call stack (60_exceptions.md R254) -/

/-- The platform lets both reads of a double pop through (60_exceptions.md R263). -/
abbrev State.CanReadTwo (s : State) : Prop :=
  accessFails s .read s.isp .word = false ∧ accessFails s .read (s.isp + 4#32) .word = false

theorem misaligned_add_four (a : Word) : misaligned (a + 4#32) .word = misaligned a .word := by
  simp only [misaligned_word, aligned4_add_four]

/-- The statements of `ret` and `rfi` up to what they do with the two words: `rest` is given the word at `isp`, then
the one above it. -/
def popTwo (s : State) (rest : Word → Word → Effect) : Effect :=
  (memRead s .read s.isp .word).bind fun first => (memRead s .read (s.isp + 4#32) .word).bind (rest first)

/-- An instruction that pops two words goes on with them, or takes the trap of the first read that does not go
through (20_memory.md R55). -/
theorem popTwo_completes {s : State} {rest : Word → Word → Effect} {o : Host.Outcome State Fault Refusal}
    (ho : o = .next (s.conclude (popTwo s rest))) :
    (misaligned s.isp .word = false → s.CanReadTwo →
      o = .next (s.conclude (rest (s.busValue .read s.isp .word) (s.busValue .read (s.isp + 4#32) .word)))) ∧
    (misaligned s.isp .word = true → o = .next (s.trapEntry .align)) ∧
    (misaligned s.isp .word = false → ¬ s.CanReadTwo → o = .next (s.trapEntry .access)) := by
  obtain ⟨hfirst, halign, hfirstFails⟩ := load_completes ho
  refine ⟨fun ha ⟨hf, hf4⟩ => ?_, halign, fun ha hreads => ?_⟩
  · obtain ⟨hsecond, -, -⟩ := load_completes (hfirst ⟨ha, hf⟩)
    exact hsecond ⟨(misaligned_add_four _).trans ha, hf4⟩
  · cases hf : accessFails s .read s.isp .word with
    | true => exact hfirstFails ha hf
    | false =>
      obtain ⟨-, -, hsecondFails⟩ := load_completes (hfirst ⟨ha, hf⟩)
      have hf4 : accessFails s .read (s.isp + 4#32) .word = true := by
        by_contra hf4
        exact hreads ⟨hf, by simpa using hf4⟩
      exact hsecondFails ((misaligned_add_four _).trans ha) hf4

/-! ## `ret` -/

theorem returnFromCall_eq (s : State) :
    returnFromCall s = popTwo s fun d p => State.writePc { s with dsp := d, isp := s.isp + 8#32 } p := rfl

/-- Settles O50: two words popped, then the write of `pc`. -/
theorem returnCompletes : Obligations.ReturnCompletes := by
  intro s g hw hc p reads
  have hret : exec (.ret g) s = .next (s.conclude (returnFromCall s)) := runStd_of_holds hw hc _
  rw [returnFromCall_eq] at hret
  obtain ⟨hpop, halign, haccess⟩ := popTwo_completes hret
  obtain ⟨hback, htrap⟩ := conclude_writePc (s := s)
    (t := { s with dsp := s.busValue .read s.isp .word, isp := s.isp + 8#32 }) rfl p
  exact ⟨fun ha hr hp => (hpop ha hr).trans (congrArg _ (hback hp)),
    fun ha hr hp => (hpop ha hr).trans (congrArg _ (htrap hp)), halign, haccess⟩

/-! ## `sleep`, `brk` and `rfi` by mode (60_exceptions.md R275) -/

theorem runsTo_sleep (g : Guard) (s : State) :
    RunsTo s (.sleep g) g (systemOnly .protection (fun s => .ok (s.withSrBit 12 true)) s) :=
  runsTo_std rfl rfl

theorem runsTo_brk (g : Guard) (s : State) : RunsTo s (.brk g) g (systemOnly .breakTrap (fun s => .ok s) s) :=
  runsTo_std rfl rfl

theorem runsTo_rfi (g : Guard) (s : State) :
    RunsTo s (.rfi g) g (systemOnly .protection State.returnFromInterrupt s) :=
  runsTo_std rfl rfl

/-- `sleep` sets the one bit F of `sr`; P stays clear, so no switch follows (10_state.md R25, R32). -/
theorem conclude_sleep {s : State} (hp : s.flagP = false) :
    s.conclude (.ok (s.withSrBit 12 true)) = { s with sr := s.sr ||| 0x1000#16 } :=
  conclude_ok fun _ => getLsbD_nine_setBit hp (by decide) true

/-- Settles O53: the mode decides between the statements and the trap. -/
theorem sleepAndBreakComplete : Obligations.SleepAndBreakComplete := by
  intro s g hw hc
  obtain ⟨hsleepTraps, hsleeps⟩ := exec_systemOnly (runsTo_sleep g s) hw hc
  obtain ⟨hrfiTraps, -⟩ := exec_systemOnly (runsTo_rfi g s) hw hc
  have hbrk := runsTo_brk g s
  refine ⟨fun hp => ⟨?_, ?_⟩, fun hp => ⟨hsleepTraps hp, ?_, hrfiTraps hp⟩⟩
  · rw [hsleeps hp, conclude_sleep hp]
  · rw [hbrk.exec_of_eq hw hc (systemOnly_of_system hp ..), conclude_ok id]
  · rw [hbrk.exec_of_eq hw hc (systemOnly_of_protected hp ..), conclude_error]

/-! ## `rfi` in system mode (R223, R273) -/

/-- `rfi` before its write of `pc`: the implemented bits of the first word in `sr`, two words off the stack. -/
def restoreSr (s : State) (saved : Word) : State := { s with isp := s.isp + 8#32, sr := lower16 saved &&& srMask }

theorem returnFromInterrupt_eq (s : State) :
    s.returnFromInterrupt = popTwo s fun saved p => (restoreSr s saved).writePc p := rfl

/-- The popped P is the mode that `rfi` returns to. -/
theorem restoreSr_flagP (s : State) (saved : Word) : (restoreSr s saved).flagP = saved.getLsbD 9 :=
  getLsbD_nine_of_srMask saved

/-- How `rfi` ends once both words are popped, in system mode: it stays there, switches to protected mode, or takes
trap 7 for the `spc` of that switch or for the popped `pc` (60_exceptions.md R252 b). -/
theorem conclude_restoreSr {s : State} (hp : s.flagP = false) (saved p : Word) :
    let restored : State := { restoreSr s saved with pc := p }
    (aligned4 p = true → saved.getLsbD 9 = false → s.conclude ((restoreSr s saved).writePc p) = restored) ∧
    (aligned4 p = true → saved.getLsbD 9 = true → aligned4 s.spc = true →
      s.conclude ((restoreSr s saved).writePc p) = restored.exchange) ∧
    (aligned4 p = true → saved.getLsbD 9 = true → aligned4 s.spc = false →
      s.conclude ((restoreSr s saved).writePc p) = s.trapEntry .pcAlign) ∧
    (aligned4 p = false → s.conclude ((restoreSr s saved).writePc p) = s.trapEntry .pcAlign) := by
  intro restored
  have hmode : restored.flagP = saved.getLsbD 9 := restoreSr_flagP s saved
  refine ⟨fun ha hP => ?_, fun ha hP hspc => ?_, fun ha hP hspc => ?_, fun ha => ?_⟩
  · rw [writePc_ok ha]
    exact conclude_ok fun _ => hmode.trans hP
  · rw [writePc_ok ha]
    exact conclude_switch hp (hmode.trans hP) hspc
  · rw [writePc_ok ha]
    exact conclude_switch_misaligned hp (hmode.trans hP) hspc
  · rw [writePc_error ha, conclude_error]

/-- Settles O54: two words popped, then `sr` and `pc` restored and the mode with them. -/
theorem returnFromInterruptCompletes : Obligations.ReturnFromInterruptCompletes := by
  intro s g hw hc hp saved p new reads
  obtain ⟨-, hrfi⟩ := exec_systemOnly (runsTo_rfi g s) hw hc
  have hrun := hrfi hp
  rw [returnFromInterrupt_eq] at hrun
  obtain ⟨hpop, halign, haccess⟩ := popTwo_completes hrun
  obtain ⟨hstay, hswitch, hspcTraps, hpcTraps⟩ := conclude_restoreSr hp saved p
  exact ⟨fun ha hr hpc hP => (hpop ha hr).trans (congrArg _ (hstay hpc hP)),
    fun ha hr hpc hP hspc => (hpop ha hr).trans (congrArg _ (hswitch hpc hP hspc)),
    fun ha hr hpc hP hspc => (hpop ha hr).trans (congrArg _ (hspcTraps hpc hP hspc)),
    fun ha hr hpc => (hpop ha hr).trans (congrArg _ (hpcTraps hpc)), halign, haccess⟩

/-! ## `rfi` after a trap entry -/

/-- With no reserved bit set, masking `sr` changes nothing (10_state.md R25). -/
theorem and_srMask_of_reserved {v : Half} (h : v &&& ~~~srMask = 0#16) : v &&& srMask = v :=
  calc v &&& srMask = (v &&& srMask) ||| (v &&& ~~~srMask) := by rw [h, BitVec.or_zero]
    _ = v := by rw [← BitVec.and_or_distrib_left, BitVec.or_not_self, BitVec.and_allOnes]

/-- The word that an entry pushes for `sr` holds `sr`. -/
theorem lower16_srWord {s : State} (h : s.sr &&& ~~~srMask = 0#16) : lower16 s.srWord = s.sr := by
  rw [State.srWord, and_srMask_of_reserved h]
  exact (BitVec.extractLsb'_setWidth_of_le (by decide)).trans BitVec.extractLsb'_eq_self

theorem srWord_getLsbD_nine (s : State) : s.srWord.getLsbD 9 = s.flagP := by
  simp [State.srWord, State.flagP, srMask]

/-- The trap entry from system mode, memory told by what was pushed (60_exceptions.md R254, R255). -/
theorem trapEntry_of_system {s : State} {k : Trap} (hwf : s.mem.wf = true) (hp : s.flagP = false)
    (ht : s.flagT = false) (hcan : s.CanEnter s.isp (trapIndex k)) :
    PushedTwo s.mem (s.trapEntry k).mem s.isp s.pc s.srWord ∧
      ∃ handler, s.trapEntry k =
        { s with
          isp := s.isp - 8#32, sr := setBit s.sr 11 true, pc := handler, mem := (s.trapEntry k).mem,
          busTime := s.busTime + 1, latch := none } := by
  have hstack : s.systemStack = s.isp := by simp [State.systemStack, hp]
  have henter : s.enterSystem = s := by simp [State.enterSystem, hp]
  have hentry := trapEntry_ok (s := s) (k := k) (by simp [ht]) (by rwa [hstack])
  rw [hstack, henter] at hentry
  rw [hentry]
  exact ⟨pushedTwo_storeBytes hwf .., _, rfl⟩

/-- Two words pushed below `top` are the two words popped at `top - 8`, where memory holds them. -/
theorem busValue_pushedTwo {before : Memory} {t : State} {top first second : Word}
    (hpushed : PushedTwo before t.mem top first second) (hisp : t.isp = top - 8#32)
    (hsecond : t.isDevice t.isp .word = false) (hfirst : t.isDevice (t.isp + 4#32) .word = false) :
    t.busValue .read t.isp .word = second ∧ t.busValue .read (t.isp + 4#32) .word = first := by
  obtain ⟨hloadFirst, hloadSecond⟩ := loadBytes_pushedTwo hpushed
  rw [busValue_memory hsecond, busValue_memory hfirst, hisp, sub_eight_add_four]
  exact ⟨hloadSecond, hloadFirst⟩

/-- Settles O59: the entry left `sr` and `pc` in the two words that `rfi` pops, with P clear. -/
theorem returnFromInterruptUndoesTrapEntry : Obligations.ReturnFromInterruptUndoesTrapEntry := by
  intro s k ⟨hpc, hsr, _, hwf, hlatch⟩ hp hT hcan t hreadSr hreadPc hmemSr hmemPc
  obtain ⟨hpushed, handler, hentry⟩ := trapEntry_of_system hwf hp hT hcan
  change t = _ at hentry
  have hisp : t.isp = s.isp - 8#32 := by rw [hentry]
  obtain ⟨hsaved, hreturn⟩ := busValue_pushedTwo hpushed hisp hmemSr hmemPc
  have hsystem : t.flagP = false := by
    rw [hentry]
    exact getLsbD_nine_setBit hp (by decide) true
  have haligned : misaligned t.isp .word = false := by
    obtain ⟨⟨htop, -, -⟩, -⟩ := hcan
    rwa [hisp, misaligned_sub_eight]
  obtain ⟨hback, -⟩ := returnFromInterruptCompletes t .always always_wellFormed (always_condHolds t) hsystem
  have hrestored : (s.srWord.extractLsb' 0 16 &&& 0x1FC3#16 : Half) = s.sr :=
    (congrArg (· &&& srMask) (lower16_srWord hsr)).trans (and_srMask_of_reserved hsr)
  rw [hsaved, hreturn, hrestored] at hback
  rw [hback haligned ⟨hreadSr, hreadPc⟩ hpc ((srWord_getLsbD_nine s).trans hp), hisp, BitVec.sub_add_cancel, hentry,
    ← hlatch]

end Sys2Proof.Machine
end

section
/-! PROOFS. What becomes of the latched half of a pair at each end of an instruction (46_compact.md R231, R241). -/

namespace Sys2Proof.Machine

/-- Statements keep the latch, and so does the switch to protected mode that may follow them; only trap 7, for a
misaligned `spc`, drops it (10_state.md R32, 60_exceptions.md R252). -/
theorem Keeps.conclude_latch {s t : State} (h : Keeps s t) :
    (s.conclude (.ok t)).latch = s.latch ∨ s.conclude (.ok t) = s.trapEntry .pcAlign := by
  rcases conclude_cases s t with htrap | hwrites | ⟨-, -, -, hswitch⟩
  · exact .inr htrap
  · exact .inl (by rw [hwrites, h.latch])
  · exact .inl (by rw [hswitch, State.exchange_latch, h.latch])

/-- However an instruction ends, it keeps the latch, takes a trap, or halts at an entry that fails (log 14). -/
theorem Ends.latch_or_trapEntry_or_halt {s t : State} {o : Host.Outcome State Fault Refusal} (h : Ends s o)
    (ho : o = .next t) : t.latch = s.latch ∨ (∃ k, t = s.trapEntry k) ∨ t = s.halt := by
  subst ho
  cases h with
  | skip e => cases e; exact .inl rfl
  | trap k e => cases e; exact .inr (.inl ⟨k, rfl⟩)
  | interrupt k e => cases e; exact (interruptEntry_latch s k).imp_right .inr
  | writes u hu e => cases e; exact hu.conclude_latch.imp_right fun htrap => .inl ⟨_, htrap⟩

/-- Settles O7: of the ways an instruction can end, only the trap entry and the halt drop the latch, and both leave it
empty. -/
theorem onlyATrapAbortsTheSecondHalf : Obligations.OnlyATrapAbortsTheSecondHalf := by
  intro i s t h
  rcases (exec_ends i s).latch_or_trapEntry_or_halt h with hkept | ⟨k, rfl⟩ | rfl
  · exact .inl hkept
  · exact .inr ⟨trapEntry_latch s k, .inl ⟨k, rfl⟩⟩
  · exact .inr ⟨State.halt_latch s, .inr rfl⟩

end Sys2Proof.Machine
end

section
/-! PROOFS. Traps and interrupts: what an entry that is delivered leaves, what one that fails leaves, and the events of
a boundary in their order (60_exceptions.md R252 to R261, R267); and that every step answers a next state. -/

namespace Sys2Proof.Machine

/-! ## The switch that an entry begins with (R252 c d) -/

theorem enterSystem_of_system {s : State} (hp : s.flagP = false) : s.enterSystem = s := by
  simp [State.enterSystem, hp]

theorem enterSystem_of_protected {s : State} (hp : s.flagP = true) : s.enterSystem = s.toSystem := by
  simp [State.enterSystem, hp]

theorem systemStack_of_system {s : State} (hp : s.flagP = false) : s.systemStack = s.isp := by
  simp [State.systemStack, hp]

theorem systemStack_of_protected {s : State} (hp : s.flagP = true) : s.systemStack = s.ssp := by
  simp [State.systemStack, hp]

/-! ## Clearing bits of `sr` under a mask -/

/-- A mask applied after a bit is cleared is one mask without that bit. -/
theorem setBit_false_and {w : Nat} (v mask : BitVec w) (i : Nat) :
    setBit v i false &&& mask = v &&& setBit mask i false := by
  simp only [setBit, Bool.false_eq_true, if_false]
  rw [BitVec.and_assoc, BitVec.and_comm (~~~_) mask]

/-- The word pushed for `sr` with one bit cleared (10_state.md R25). -/
theorem srWord_setBit_false {s t : State} {i : Nat} (h : t.sr = setBit s.sr i false) :
    t.srWord = (s.sr &&& setBit srMask i false).zeroExtend 32 := by
  rw [State.srWord, h, setBit_false_and]

/-! ## An entry that is delivered (R253, R254, R255, R260) -/

/-- A delivered trap: from the state after the switch, two words pushed, T set, `pc` from the table. -/
theorem trapEntry_delivered {s : State} {k : Trap} (hwf : s.mem.wf = true) (hd : ¬(s.flagT = true ∧ s.flagP = false))
    (hcan : s.CanEnter s.systemStack (trapIndex k)) :
    let e := s.enterSystem
    let t := s.trapEntry k
    PushedTwo s.mem t.mem s.systemStack e.pc e.srWord ∧
      t = { e with
        isp := s.systemStack - 8#32, sr := setBit e.sr 11 true, mem := t.mem, busTime := s.busTime + 1, latch := none
        pc := clear2 (t.busValue .read (s.vectorAddress (trapIndex k)) .word) } := by
  intro e t
  have hentry : t = _ := trapEntry_ok hd hcan
  rw [hentry]
  exact ⟨pushedTwo_storeBytes hwf .., rfl⟩

/-- A delivered interrupt: F is cleared after the switch, and I is set in place of T. -/
theorem interruptEntry_delivered {s : State} {k : BitVec 8} (hwf : s.mem.wf = true)
    (hcan : s.CanEnter s.systemStack k) :
    let e := s.enterSystem.withSrBit 12 false
    let t := s.interruptEntry k
    PushedTwo s.mem t.mem s.systemStack e.pc e.srWord ∧
      t = { e with
        isp := s.systemStack - 8#32, sr := setBit e.sr 8 true, mem := t.mem, busTime := s.busTime + 1
        pc := clear2 (t.busValue .read (s.vectorAddress k) .word) } := by
  intro e t
  have hentry : t = _ := interruptEntry_ok hcan
  rw [hentry]
  exact ⟨pushedTwo_storeBytes hwf .., rfl⟩

/-- Settles O56: the delivered entry, with the switch and the bits of `sr` written out for each mode. -/
theorem trapEntryPushesAndVectors : Obligations.TrapEntryPushesAndVectors := by
  refine ⟨by decide, ?_⟩
  intro s k hwf hcan t handler
  refine ⟨fun hp ht => ?_, fun hp => ?_⟩
  · have hentry := trapEntry_delivered hwf (by simp [ht]) hcan
    rw [enterSystem_of_system hp, systemStack_of_system hp] at hentry
    exact hentry
  · have hentry := trapEntry_delivered hwf (by simp [hp]) hcan
    rw [enterSystem_of_protected hp, systemStack_of_protected hp] at hentry
    obtain ⟨hpushed, heq⟩ := hentry
    rw [srWord_setBit_false (State.toSystem_sr s)] at hpushed
    exact ⟨hpushed, heq⟩

/-- Settles O58: as for a trap, with F cleared too; from protected mode both P and F leave the pushed `sr`. -/
theorem interruptEntryPushesAndVectors : Obligations.InterruptEntryPushesAndVectors := by
  intro s k hwf hcan t handler
  refine ⟨fun hp => ?_, fun hp => ?_⟩
  · have hentry := interruptEntry_delivered hwf hcan
    rw [enterSystem_of_system hp, systemStack_of_system hp] at hentry
    obtain ⟨hpushed, heq⟩ := hentry
    rw [srWord_setBit_false (State.withSrBit_sr s 12 false)] at hpushed
    exact ⟨hpushed, heq⟩
  · have hentry := interruptEntry_delivered hwf hcan
    rw [enterSystem_of_protected hp, systemStack_of_protected hp] at hentry
    obtain ⟨hpushed, heq⟩ := hentry
    rw [srWord_setBit_false (State.withSrBit_sr s.toSystem 12 false), State.toSystem_sr, setBit_false_and] at hpushed
    refine ⟨hpushed, heq.trans ?_⟩
    have hsr : setBit (setBit s.sr 9 false) 12 false = s.sr &&& ~~~0x1200#16 := by
      simp only [setBit, Bool.false_eq_true, if_false]
      rw [BitVec.and_assoc]
      rfl
    simp only [State.withSrBit_sr, State.toSystem_sr, hsr]
    rfl

/-! ## An entry that fails (R257, R261) -/

/-- The halt sets F and drops the latched half: nothing else changes. -/
theorem halt_eq (s : State) : s.halt = { s with sr := s.sr ||| 0x1000#16, latch := none } := rfl

/-- Settles O57: all three are the halt. -/
theorem failedEntryHalts : Obligations.FailedEntryHalts := by
  intro s halted
  have hhalt : s.halt = halted := halt_eq s
  exact ⟨fun k ht hp => (trapEntry_doubleTrap ht hp k).trans hhalt,
    fun _ _ hcan => (trapEntry_fails hcan).trans hhalt,
    fun _ hcan => (interruptEntry_fails hcan).trans hhalt⟩

/-! ## The fetch that fails (R256, R263) -/

/-- Settles O9: the read of the word fails before `pc` moves. -/
theorem failingFetchTraps : Obligations.FailingFetchTraps := by
  intro s hready haligned hfails
  have hfetch : fetch s = .error .access := memRead_fails (by rw [misaligned_word, haligned]; rfl) hfails
  rw [step_of_ready hready, fetchAndRun, hfetch]

/-! ## The events of a boundary (R267) -/

theorem boundary_of_low {s : State} (hline : s.resetLine = .low) : boundary s = .next s := by
  simp only [boundary, hline]

theorem boundary_of_risen {s : State} (hline : s.resetLine = .risen) : boundary s = .next s.performReset := by
  simp only [boundary, hline]

/-- A pending NMI is taken whatever F, I, T and P are (R268). -/
theorem boundary_of_nmi {s : State} (hline : s.resetLine = .high) (hnmi : s.nmiPending ≠ 0) :
    boundary s = .next (State.interruptEntry { s with nmiPending := s.nmiPending - 1 } nmiIndex) := by
  simp only [boundary, hline, if_pos hnmi]

theorem boundary_of_irq {s : State} (hline : s.resetLine = .high) (hnmi : s.nmiPending = 0) (hI : s.flagI = false)
    {k : BitVec 8} {rest : List (BitVec 8)} (hirq : s.irqPending = k :: rest) :
    boundary s = .next (State.interruptEntry { s with irqPending := rest } k) := by
  simp only [boundary, hline, hnmi, ne_eq, not_true_eq_false, if_false, hI, hirq]

/-- With no event due, F decides between remaining halted and the fetch (R272). -/
theorem boundary_of_quiet {s : State} (hline : s.resetLine = .high) (hnmi : s.nmiPending = 0)
    (hirq : s.flagI = true ∨ s.irqPending = []) : boundary s = if s.flagF then .next s else fetchAndRun s := by
  simp only [boundary, hline, hnmi, ne_eq, not_true_eq_false, if_false]
  split
  case h_1 hI hpending =>
    rcases hirq with hinhibited | hnone
    · exact absurd (hI.symm.trans hinhibited) (by decide)
    · exact absurd (hpending.symm.trans hnone) (List.cons_ne_nil _ _)
  case h_2 => rfl

/-- Settles O10: with no half pending the step is a boundary, whose events exclude each other. -/
theorem boundaryTakesEventsInOrder : Obligations.BoundaryTakesEventsInOrder := by
  intro s hlatch
  rw [step_of_latch_none hlatch]
  refine ⟨boundary_of_low, boundary_of_risen, boundary_of_nmi,
    fun hline hnmi hI _ _ hirq => boundary_of_irq hline hnmi hI hirq, fun ⟨_, hline, hnmi, hirq, hF⟩ => ?_⟩
  rw [boundary_of_quiet hline hnmi hirq, if_pos hF]

/-! ## Every step answers a next state (R255, R257, R261, R272) -/

/-- The outcome is a next state, not a fault and not a refusal (log 19). -/
def AnswersNext (o : Host.Outcome State Fault Refusal) : Prop := ∃ t, o = .next t

theorem answersNext_next (t : State) : AnswersNext (.next t) := ⟨t, rfl⟩

/-- Whichever way an instruction ends, it ends in a state. -/
theorem Ends.answersNext {s : State} {o : Host.Outcome State Fault Refusal} (h : Ends s o) : AnswersNext o := by
  cases h with
  | skip e => exact ⟨_, e⟩
  | trap k e => exact ⟨_, e⟩
  | interrupt k e => exact ⟨_, e⟩
  | writes t hkeeps e => exact ⟨_, e⟩

theorem answersNext_runLatched (s : State) : AnswersNext (runLatched s) := by
  cases hl : s.latch with
  | none => exact ⟨s, runLatched_of_none hl⟩
  | some h =>
    rw [runLatched_of_some hl]
    exact (ends_runHalf h _).answersNext

/-- Instruction 1 answers a state, and what is latched of instruction 2 runs on it (46_compact.md R231). -/
theorem answersNext_runPair (first second : Half) (s : State) : AnswersNext (runPair first second s) := by
  obtain ⟨t, ht⟩ := (ends_runHalf first { s with latch := some second }).answersNext
  rw [runPair_of_next ht]
  exact answersNext_runLatched t

/-- A compact pair, an accepted standard word, or a rejected one (30_encoding.md R77). -/
theorem answersNext_runWord (w : Word) (s : State) : AnswersNext (runWord w s) := by
  unfold runWord
  split_ifs
  · exact answersNext_runPair ..
  · split
    · exact (exec_ends _ s).answersNext
    · exact (ends_runReject _ s).answersNext

theorem answersNext_fetchAndRun (s : State) : AnswersNext (fetchAndRun s) := by
  unfold fetchAndRun
  split
  · exact answersNext_runWord ..
  · exact answersNext_next _

theorem answersNext_boundary (s : State) : AnswersNext (boundary s) := by
  cases hline : s.resetLine with
  | low => exact ⟨_, boundary_of_low hline⟩
  | risen => exact ⟨_, boundary_of_risen hline⟩
  | high =>
    by_cases hnmi : s.nmiPending = 0
    case neg => exact ⟨_, boundary_of_nmi hline hnmi⟩
    have quiet (h : s.flagI = true ∨ s.irqPending = []) : AnswersNext (boundary s) := by
      rw [boundary_of_quiet hline hnmi h]
      split_ifs
      · exact answersNext_next s
      · exact answersNext_fetchAndRun s
    cases hI : s.flagI with
    | true => exact quiet (.inl hI)
    | false =>
      cases hirq : s.irqPending with
      | nil => exact quiet (.inr hirq)
      | cons k rest => exact ⟨_, boundary_of_irq hline hnmi hI hirq⟩

/-- Settles O12: every end of an instruction is a state, and so is every event of a boundary; a state with a half
pending runs that half. -/
theorem everyStepAnswersNext : Obligations.EveryStepAnswersNext := by
  refine ⟨fun i s => (exec_ends i s).answersNext, fun s => ?_⟩
  cases hl : s.latch with
  | none =>
    rw [step_of_latch_none hl]
    exact answersNext_boundary s
  | some h =>
    have hstep : step s = runLatched s := by simp only [step, stepCycle, hl]
    rw [hstep]
    exact answersNext_runLatched s

end Sys2Proof.Machine
end
